-- ==== Sys2Proof/Word.lean ====
section
/-! DEFINITION. The word types of the machine (spec/00_scope.md R5, R10). All values are
unsigned; bit 0 is the least significant bit. -/

namespace Sys2Proof

/-- A 4-bit field of the opcode (R10, R14). -/
abbrev Nibble := BitVec 4

/-- An 8-bit value: a general register, a timer, a memory cell, the immediate `nn` (R5, R71). -/
abbrev Byte := BitVec 8

/-- A 12-bit address immediate `nnn` (R71, R77). -/
abbrev Addr12 := BitVec 12

/-- A 16-bit value: an opcode, `I`, `PC`, a return address (R5). -/
abbrev Word := BitVec 16

end Sys2Proof
end

