-- ==== Sys2Proof/Syntax.lean ====
section
/-! DEFINITION. The instruction set: one constructor per row of spec/opcode_table.json
(spec/30_encoding.md R73, 34 rows). Operand fields are typed with the range their encoding has
(R71, R77): a register index is one of 16, `nn` has 8 bits, `nnn` 12 and `n` is 0 to 15. -/

namespace Sys2Proof

/-- A register index, selecting `V0` to `VF` (spec/10_state.md R20; a 4-bit field, R71). -/
abbrev Reg := Fin 16

/-- The sprite height `n` of `Dxyn`, "an unsigned 4-bit count (0..15)" (R77). -/
abbrev Rows := Fin 16

/-- The 34 instructions (R73). The pattern is the normative name (R79). -/
inductive Instr where
  /-- `00E0` clear the framebuffer (R171). -/
  | cls
  /-- `00EE` return (R110). -/
  | ret
  /-- `1nnn` jump (R111). -/
  | jp (nnn : Addr12)
  /-- `2nnn` call (R112). -/
  | call (nnn : Addr12)
  /-- `3xnn` skip if register equals immediate (R120). -/
  | seByte (x : Reg) (nn : Byte)
  /-- `4xnn` skip if register differs from immediate (R121). -/
  | sneByte (x : Reg) (nn : Byte)
  /-- `5xy0` skip if two registers are equal (R122). -/
  | seReg (x y : Reg)
  /-- `6xnn` load immediate (R130). -/
  | ldByte (x : Reg) (nn : Byte)
  /-- `7xnn` add immediate, no flag (R131). -/
  | addByte (x : Reg) (nn : Byte)
  /-- `8xy0` copy register (R132). -/
  | ldReg (x y : Reg)
  /-- `8xy1` OR (R133). -/
  | orReg (x y : Reg)
  /-- `8xy2` AND (R134). -/
  | andReg (x y : Reg)
  /-- `8xy3` XOR (R135). -/
  | xorReg (x y : Reg)
  /-- `8xy4` add with carry out (R136). -/
  | addReg (x y : Reg)
  /-- `8xy5` subtract (R137). -/
  | subReg (x y : Reg)
  /-- `8xy6` shift right (R138). -/
  | shrReg (x y : Reg)
  /-- `8xy7` reversed subtract (R139). -/
  | subnReg (x y : Reg)
  /-- `8xyE` shift left (R140). -/
  | shlReg (x y : Reg)
  /-- `9xy0` skip if two registers differ (R123). -/
  | sneReg (x y : Reg)
  /-- `Annn` load the index register (R150). -/
  | ldI (nnn : Addr12)
  /-- `Bnnn` jump to `V[0] + nnn` (R113). -/
  | jpV0 (nnn : Addr12)
  /-- `Cxnn` masked random byte (R145). -/
  | rnd (x : Reg) (nn : Byte)
  /-- `Dxyn` draw a sprite (R172). -/
  | drw (x y : Reg) (n : Rows)
  /-- `Ex9E` skip if key pressed (R183). -/
  | skp (x : Reg)
  /-- `ExA1` skip if key not pressed (R184). -/
  | sknp (x : Reg)
  /-- `Fx07` read the delay timer (R186). -/
  | ldVxDT (x : Reg)
  /-- `Fx0A` wait for a key (R185). -/
  | ldVxK (x : Reg)
  /-- `Fx15` set the delay timer (R187). -/
  | ldDTVx (x : Reg)
  /-- `Fx18` set the sound timer (R188). -/
  | ldSTVx (x : Reg)
  /-- `Fx1E` add to the index register (R151). -/
  | addIVx (x : Reg)
  /-- `Fx29` point `I` at a glyph (R152). -/
  | ldFVx (x : Reg)
  /-- `Fx33` store decimal digits (R153). -/
  | ldBVx (x : Reg)
  /-- `Fx55` store `V[0..x]` (R154). -/
  | ldMemVx (x : Reg)
  /-- `Fx65` load `V[0..x]` (R155). -/
  | ldVxMem (x : Reg)
  deriving DecidableEq, Repr

/-- An operand field of an encoding: its bits `hi..lo` and the number it holds (R71). -/
structure Field where
  hi : Nat
  lo : Nat
  value : Nat
  deriving DecidableEq, Repr

/-- One row of the opcode table: the row's mnemonic in spec/opcode_table.json, the value of its
fixed bits and the mask that selects them (R73). -/
structure Row where
  mnemonic : String
  matchBits : Word
  mask : Word
  deriving DecidableEq, Repr

end Sys2Proof
end

