-- ==== Sys2Proof/WellFormed.lean ====
section
/-! DEFINITION. Well-formedness of an instruction: its operand fields lie where the format puts
them, fit their bits and do not overlap (spec/30_encoding.md R71, R72, R77). The checks are on
`Field`, which holds plain numbers; an `Instr` is typed so that its fields always pass
(Sys2Proof/Laws/PerInstr.lean proves it of every constructor; log entry 24). -/

namespace Sys2Proof

/-- Field `x`, bits 11..8 (R71). -/
def Field.x (r : Reg) : Field := ⟨11, 8, r.val⟩

/-- Field `y`, bits 7..4 (R71). -/
def Field.y (r : Reg) : Field := ⟨7, 4, r.val⟩

/-- Field `n`, bits 3..0 (R71). -/
def Field.n (k : Rows) : Field := ⟨3, 0, k.val⟩

/-- Field `nn`, bits 7..0 (R71). -/
def Field.nn (b : Byte) : Field := ⟨7, 0, b.toNat⟩

/-- Field `nnn`, bits 11..0 (R71). -/
def Field.nnn (a : Addr12) : Field := ⟨11, 0, a.toNat⟩

/-- The field is a run of bits inside the 16-bit word (R70). -/
def Field.inWord (f : Field) : Bool := decide (f.lo ≤ f.hi) && decide (f.hi < 16)

/-- The number fits the field's bits: a register index is at most 15 (R20), `nn` is at most 255,
`nnn` at most 4095, `n` at most 15 (R77). -/
def Field.fits (f : Field) : Bool := decide (f.value < 2 ^ (f.hi + 1 - f.lo))

/-- Two fields of one format share no bit (R72). -/
def Field.apart (f g : Field) : Bool := decide (f.hi < g.lo) || decide (g.hi < f.lo)

/-- The three checks on an instruction's list of fields. -/
def fieldsWf : List Field → Bool
  | [] => true
  | f :: fs => f.inWord && f.fits && fs.all (f.apart ·) && fieldsWf fs

/-- The operand fields of an instruction, as its row of spec/opcode_table.json lists them. -/
def Instr.fields : Instr → List Field
  | .cls => []
  | .ret => []
  | .jp nnn => [.nnn nnn]
  | .call nnn => [.nnn nnn]
  | .seByte x nn => [.x x, .nn nn]
  | .sneByte x nn => [.x x, .nn nn]
  | .seReg x y => [.x x, .y y]
  | .ldByte x nn => [.x x, .nn nn]
  | .addByte x nn => [.x x, .nn nn]
  | .ldReg x y => [.x x, .y y]
  | .orReg x y => [.x x, .y y]
  | .andReg x y => [.x x, .y y]
  | .xorReg x y => [.x x, .y y]
  | .addReg x y => [.x x, .y y]
  | .subReg x y => [.x x, .y y]
  | .shrReg x y => [.x x, .y y]
  | .subnReg x y => [.x x, .y y]
  | .shlReg x y => [.x x, .y y]
  | .sneReg x y => [.x x, .y y]
  | .ldI nnn => [.nnn nnn]
  | .jpV0 nnn => [.nnn nnn]
  | .rnd x nn => [.x x, .nn nn]
  | .drw x y n => [.x x, .y y, .n n]
  | .skp x => [.x x]
  | .sknp x => [.x x]
  | .ldVxDT x => [.x x]
  | .ldVxK x => [.x x]
  | .ldDTVx x => [.x x]
  | .ldSTVx x => [.x x]
  | .addIVx x => [.x x]
  | .ldFVx x => [.x x]
  | .ldBVx x => [.x x]
  | .ldMemVx x => [.x x]
  | .ldVxMem x => [.x x]

/-- An instruction is well formed when its fields are. -/
def Instr.wf (i : Instr) : Bool := fieldsWf i.fields

end Sys2Proof
end

