-- ==== Sys2Proof/Decode.lean ====
section
/-! DEFINITION. The decoder, the opcode table and the encoder (spec/30_encoding.md). Decoding
is a pure function of the word (R74, R94); every word is one of the 34 instructions or is
rejected as unimplemented (R75, R76). Every literal hexadecimal digit of a pattern is matched
(R74, the spec's own choice D2; log entry 18). -/

namespace Sys2Proof

/-- Why a byte sequence is not an instruction. -/
inductive Reject where
  /-- Fewer than the two bytes of an instruction (R70). Safe: the fetch always gives two. -/
  | tooShort
  /-- The word matches no row of R73 (R75); it carries the word, as the document's
  `UnimplementedOpcode(op)` does. -/
  | unimplementedOpcode (op : Word)
  deriving DecidableEq, Repr

/-- "high byte first" (R57): the number whose bytes are `bs`, as a word. For two bytes it is
`b[0] * 256 + b[1]` (R91). -/
def beWord (bs : List Byte) : Word :=
  BitVec.ofNat 16 (bs.foldl (fun acc b => acc * 256 + b.toNat) 0)

/-- The two bytes of a word, high byte first (R57). -/
def beBytes (w : Word) : List Byte := [w.extractLsb' 8 8, w.extractLsb' 0 8]

/-- `op_class`: bits 15..12 (R71), here shifted down. -/
def classField (op : Word) : Nibble := op.extractLsb' 12 4

/-- `x`: bits 11..8 (R71). -/
def xField (op : Word) : Reg := (op.extractLsb' 8 4).toFin

/-- `y`: bits 7..4 (R71). -/
def yField (op : Word) : Reg := (op.extractLsb' 4 4).toFin

/-- `n`: bits 3..0 (R71). -/
def nField (op : Word) : Rows := (op.extractLsb' 0 4).toFin

/-- `nn`: bits 7..0 (R71). -/
def nnField (op : Word) : Byte := op.extractLsb' 0 8

/-- `nnn`: bits 11..0 (R71). -/
def nnnField (op : Word) : Addr12 := op.extractLsb' 0 12

/-- Class 0x0: the whole word is matched (R74). -/
def decodeClass0 (op : Word) : Except Reject Instr :=
  match (nnnField op).toNat with
  | 0x0E0 => .ok .cls
  | 0x0EE => .ok .ret
  | _ => .error (.unimplementedOpcode op)

/-- Class 0x5: the low nibble is matched (R74, R122). -/
def decodeClass5 (op : Word) : Except Reject Instr :=
  match (nField op).val with
  | 0x0 => .ok (.seReg (xField op) (yField op))
  | _ => .error (.unimplementedOpcode op)

/-- Class 0x8: the low nibble is matched (R74). -/
def decodeClass8 (op : Word) : Except Reject Instr :=
  match (nField op).val with
  | 0x0 => .ok (.ldReg (xField op) (yField op))
  | 0x1 => .ok (.orReg (xField op) (yField op))
  | 0x2 => .ok (.andReg (xField op) (yField op))
  | 0x3 => .ok (.xorReg (xField op) (yField op))
  | 0x4 => .ok (.addReg (xField op) (yField op))
  | 0x5 => .ok (.subReg (xField op) (yField op))
  | 0x6 => .ok (.shrReg (xField op) (yField op))
  | 0x7 => .ok (.subnReg (xField op) (yField op))
  | 0xE => .ok (.shlReg (xField op) (yField op))
  | _ => .error (.unimplementedOpcode op)

/-- Class 0x9: the low nibble is matched (R74, R123). -/
def decodeClass9 (op : Word) : Except Reject Instr :=
  match (nField op).val with
  | 0x0 => .ok (.sneReg (xField op) (yField op))
  | _ => .error (.unimplementedOpcode op)

/-- Class 0xE: the whole low byte is matched (R74). -/
def decodeClassE (op : Word) : Except Reject Instr :=
  match (nnField op).toNat with
  | 0x9E => .ok (.skp (xField op))
  | 0xA1 => .ok (.sknp (xField op))
  | _ => .error (.unimplementedOpcode op)

/-- Class 0xF: the whole low byte is matched (R74). -/
def decodeClassF (op : Word) : Except Reject Instr :=
  match (nnField op).toNat with
  | 0x07 => .ok (.ldVxDT (xField op))
  | 0x0A => .ok (.ldVxK (xField op))
  | 0x15 => .ok (.ldDTVx (xField op))
  | 0x18 => .ok (.ldSTVx (xField op))
  | 0x1E => .ok (.addIVx (xField op))
  | 0x29 => .ok (.ldFVx (xField op))
  | 0x33 => .ok (.ldBVx (xField op))
  | 0x55 => .ok (.ldMemVx (xField op))
  | 0x65 => .ok (.ldVxMem (xField op))
  | _ => .error (.unimplementedOpcode op)

/-- `Decode(op)` (R94): the one row of R73 that `op` matches, with its operand fields. -/
def decodeWord (op : Word) : Except Reject Instr :=
  match (classField op).toNat with
  | 0x0 => decodeClass0 op
  | 0x1 => .ok (.jp (nnnField op))
  | 0x2 => .ok (.call (nnnField op))
  | 0x3 => .ok (.seByte (xField op) (nnField op))
  | 0x4 => .ok (.sneByte (xField op) (nnField op))
  | 0x5 => decodeClass5 op
  | 0x6 => .ok (.ldByte (xField op) (nnField op))
  | 0x7 => .ok (.addByte (xField op) (nnField op))
  | 0x8 => decodeClass8 op
  | 0x9 => decodeClass9 op
  | 0xA => .ok (.ldI (nnnField op))
  | 0xB => .ok (.jpV0 (nnnField op))
  | 0xC => .ok (.rnd (xField op) (nnField op))
  | 0xD => .ok (.drw (xField op) (yField op) (nField op))
  | 0xE => decodeClassE op
  | 0xF => decodeClassF op
  | _ => .error (.unimplementedOpcode op)

/-- Decode the instruction at the front of a byte sequence; the rest of the sequence comes with
it. Every instruction is two bytes, high byte first (R57, R70). -/
def decode : List Byte → Except Reject (Instr × List Byte)
  | hi :: lo :: rest =>
    match decodeWord (beWord [hi, lo]) with
    | .ok i => .ok (i, rest)
    | .error e => .error e
  | _ => .error .tooShort

/-- The row of the opcode table an instruction belongs to (R73). -/
def Instr.row : Instr → Row
  | .cls => ⟨"CLS", 0x00E0, 0xFFFF⟩
  | .ret => ⟨"RET", 0x00EE, 0xFFFF⟩
  | .jp _ => ⟨"JP_nnn", 0x1000, 0xF000⟩
  | .call _ => ⟨"CALL_nnn", 0x2000, 0xF000⟩
  | .seByte _ _ => ⟨"SE_Vx__nn", 0x3000, 0xF000⟩
  | .sneByte _ _ => ⟨"SNE_Vx__nn", 0x4000, 0xF000⟩
  | .seReg _ _ => ⟨"SE_Vx__Vy", 0x5000, 0xF00F⟩
  | .ldByte _ _ => ⟨"LD_Vx__nn", 0x6000, 0xF000⟩
  | .addByte _ _ => ⟨"ADD_Vx__nn", 0x7000, 0xF000⟩
  | .ldReg _ _ => ⟨"LD_Vx__Vy", 0x8000, 0xF00F⟩
  | .orReg _ _ => ⟨"OR_Vx__Vy", 0x8001, 0xF00F⟩
  | .andReg _ _ => ⟨"AND_Vx__Vy", 0x8002, 0xF00F⟩
  | .xorReg _ _ => ⟨"XOR_Vx__Vy", 0x8003, 0xF00F⟩
  | .addReg _ _ => ⟨"ADD_Vx__Vy", 0x8004, 0xF00F⟩
  | .subReg _ _ => ⟨"SUB_Vx__Vy", 0x8005, 0xF00F⟩
  | .shrReg _ _ => ⟨"SHR_Vx__Vy", 0x8006, 0xF00F⟩
  | .subnReg _ _ => ⟨"SUBN_Vx__Vy", 0x8007, 0xF00F⟩
  | .shlReg _ _ => ⟨"SHL_Vx__Vy", 0x800E, 0xF00F⟩
  | .sneReg _ _ => ⟨"SNE_Vx__Vy", 0x9000, 0xF00F⟩
  | .ldI _ => ⟨"LD_I__nnn", 0xA000, 0xF000⟩
  | .jpV0 _ => ⟨"JP_V0__nnn", 0xB000, 0xF000⟩
  | .rnd _ _ => ⟨"RND_Vx__nn", 0xC000, 0xF000⟩
  | .drw _ _ _ => ⟨"DRW_Vx__Vy__n", 0xD000, 0xF000⟩
  | .skp _ => ⟨"SKP_Vx", 0xE09E, 0xF0FF⟩
  | .sknp _ => ⟨"SKNP_Vx", 0xE0A1, 0xF0FF⟩
  | .ldVxDT _ => ⟨"LD_Vx__DT", 0xF007, 0xF0FF⟩
  | .ldVxK _ => ⟨"LD_Vx__K", 0xF00A, 0xF0FF⟩
  | .ldDTVx _ => ⟨"LD_DT__Vx", 0xF015, 0xF0FF⟩
  | .ldSTVx _ => ⟨"LD_ST__Vx", 0xF018, 0xF0FF⟩
  | .addIVx _ => ⟨"ADD_I__Vx", 0xF01E, 0xF0FF⟩
  | .ldFVx _ => ⟨"LD_F__Vx", 0xF029, 0xF0FF⟩
  | .ldBVx _ => ⟨"LD_B__Vx", 0xF033, 0xF0FF⟩
  | .ldMemVx _ => ⟨"LD__I___Vx", 0xF055, 0xF0FF⟩
  | .ldVxMem _ => ⟨"LD_Vx___I", 0xF065, 0xF0FF⟩

/-- One instruction of every constructor, all operands zero: what `opcodeTable` is read from. -/
def oneOfEach : List Instr :=
  [.cls, .ret, .jp 0, .call 0, .seByte 0 0, .sneByte 0 0, .seReg 0 0, .ldByte 0 0, .addByte 0 0] ++
  [.ldReg 0 0, .orReg 0 0, .andReg 0 0, .xorReg 0 0, .addReg 0 0, .subReg 0 0, .shrReg 0 0,
   .subnReg 0 0, .shlReg 0 0, .sneReg 0 0] ++
  [.ldI 0, .jpV0 0, .rnd 0 0, .drw 0 0 0, .skp 0, .sknp 0] ++
  [.ldVxDT 0, .ldVxK 0, .ldDTVx 0, .ldSTVx 0, .addIVx 0, .ldFVx 0, .ldBVx 0, .ldMemVx 0, .ldVxMem 0]

/-- The 34 rows of R73, in the table's order. -/
def opcodeTable : List Row := oneOfEach.map Instr.row

/-- `op` selects the row: `op & mask = match` (R73). -/
def Row.selectedBy (r : Row) (op : Word) : Bool := op &&& r.mask == r.matchBits

/-! ## The encoder, one function per format of R72 -/

/-- Format NNN. -/
def encodeNNN (cls : Nibble) (nnn : Addr12) : Word := cls ++ nnn

/-- Format XNN. -/
def encodeXNN (cls : Nibble) (x : Reg) (nn : Byte) : Word := cls ++ BitVec.ofFin (w := 4) x ++ nn

/-- Formats XY (`low` is the fixed minor nibble) and XYN (`low` is `n`). -/
def encodeXY (cls : Nibble) (x y : Reg) (low : Nibble) : Word :=
  cls ++ BitVec.ofFin (w := 4) x ++ BitVec.ofFin (w := 4) y ++ low

/-- Format X: `minor` is the fixed low byte. -/
def encodeX (cls : Nibble) (x : Reg) (minor : Byte) : Word := encodeXNN cls x minor

/-- The word of an instruction (R72, R73). -/
def encodeWord : Instr → Word
  | .cls => 0x00E0
  | .ret => 0x00EE
  | .jp nnn => encodeNNN 0x1 nnn
  | .call nnn => encodeNNN 0x2 nnn
  | .seByte x nn => encodeXNN 0x3 x nn
  | .sneByte x nn => encodeXNN 0x4 x nn
  | .seReg x y => encodeXY 0x5 x y 0x0
  | .ldByte x nn => encodeXNN 0x6 x nn
  | .addByte x nn => encodeXNN 0x7 x nn
  | .ldReg x y => encodeXY 0x8 x y 0x0
  | .orReg x y => encodeXY 0x8 x y 0x1
  | .andReg x y => encodeXY 0x8 x y 0x2
  | .xorReg x y => encodeXY 0x8 x y 0x3
  | .addReg x y => encodeXY 0x8 x y 0x4
  | .subReg x y => encodeXY 0x8 x y 0x5
  | .shrReg x y => encodeXY 0x8 x y 0x6
  | .subnReg x y => encodeXY 0x8 x y 0x7
  | .shlReg x y => encodeXY 0x8 x y 0xE
  | .sneReg x y => encodeXY 0x9 x y 0x0
  | .ldI nnn => encodeNNN 0xA nnn
  | .jpV0 nnn => encodeNNN 0xB nnn
  | .rnd x nn => encodeXNN 0xC x nn
  | .drw x y n => encodeXY 0xD x y (BitVec.ofFin (w := 4) n)
  | .skp x => encodeX 0xE x 0x9E
  | .sknp x => encodeX 0xE x 0xA1
  | .ldVxDT x => encodeX 0xF x 0x07
  | .ldVxK x => encodeX 0xF x 0x0A
  | .ldDTVx x => encodeX 0xF x 0x15
  | .ldSTVx x => encodeX 0xF x 0x18
  | .addIVx x => encodeX 0xF x 0x1E
  | .ldFVx x => encodeX 0xF x 0x29
  | .ldBVx x => encodeX 0xF x 0x33
  | .ldMemVx x => encodeX 0xF x 0x55
  | .ldVxMem x => encodeX 0xF x 0x65

/-- The bytes of an instruction as memory holds them: high byte first (R57). -/
def encode (i : Instr) : List Byte := beBytes (encodeWord i)

/-! ## The host's numbering of a word's bits -/

/-- The bytes, as memory holds them, of an instruction word given as the opcode table numbers
its bits: bit 0 is the word's least significant bit, and bits at or above `nbits` are zero. -/
def tableWordBytes (nbits w : Nat) : List Byte := beBytes (BitVec.ofNat 16 (w % 2 ^ nbits))

/-- The instruction the decoder reads from a table word, if any. -/
def decodeTableWord (nbits w : Nat) : Option Instr :=
  match decode (tableWordBytes nbits w) with
  | .ok (i, _) => some i
  | .error _ => none

end Sys2Proof
end

