-- ==== Sys2Proof/Config.lean ====
section
/-! DEFINITION. What an implementation fixes (spec/00_scope.md R5, R6) and the one free value.
STACK_DEPTH and FONT are parameters a model takes as arguments (R6): they stand in `Config`,
and a state carries its `Config`, so that a statement about every state is a statement about
every depth 12 to 16 and every font. TICK_HZ and CYCLES_PER_TICK are read by no rule (R6). -/

namespace Sys2Proof

/-- The parameters of R6. The depth is held as its excess over 12, so that only the values
12 to 16 exist. -/
structure Config where
  /-- STACK_DEPTH minus 12 (R6: "a model must accept any value from 12 to 16"). -/
  depthAbove12 : Fin 5
  /-- FONT: the 80 bytes written at FONT_BASE at reset (R6, R243). -/
  font : Vector Byte 80
  deriving DecidableEq, Repr

namespace Config

/-- STACK_DEPTH, the number of return addresses the call stack holds (R6, R30). -/
def stackDepth (c : Config) : Nat := 12 + c.depthAbove12.val

/-- MEM_SIZE (R5). -/
def memSize : Nat := 4096

/-- FONT_BASE (R5). -/
def fontBase : Nat := 0x050

/-- The size of the font region in bytes (R5). -/
def fontSize : Nat := 80

/-- PROG_BASE, where a program is loaded (R5). -/
def progBase : Word := 0x200

/-- The default font of R243, glyphs 0 to 7, five bytes a glyph, top row first.
PRESUMED (the spec takes the table from general knowledge, K3; log entry 14). -/
def defaultFontLow : List Byte :=
  [0xF0, 0x90, 0x90, 0x90, 0xF0] ++
  [0x20, 0x60, 0x20, 0x20, 0x70] ++
  [0xF0, 0x10, 0xF0, 0x80, 0xF0] ++
  [0xF0, 0x10, 0xF0, 0x10, 0xF0] ++
  [0x90, 0x90, 0xF0, 0x10, 0x10] ++
  [0xF0, 0x80, 0xF0, 0x10, 0xF0] ++
  [0xF0, 0x80, 0xF0, 0x90, 0xF0] ++
  [0xF0, 0x10, 0x20, 0x40, 0x40]

/-- The default font of R243, glyphs 8 to F. PRESUMED (K3; log entry 14). -/
def defaultFontHigh : List Byte :=
  [0xF0, 0x90, 0xF0, 0x90, 0xF0] ++
  [0xF0, 0x90, 0xF0, 0x10, 0xF0] ++
  [0xF0, 0x90, 0xF0, 0x90, 0x90] ++
  [0xE0, 0x90, 0xE0, 0x90, 0xE0] ++
  [0xF0, 0x80, 0x80, 0x80, 0xF0] ++
  [0xE0, 0x90, 0x90, 0x90, 0xE0] ++
  [0xF0, 0x80, 0xF0, 0x80, 0xF0] ++
  [0xF0, 0x80, 0xF0, 0x80, 0x80]

/-- The default value of FONT (R243). -/
def defaultFont : Vector Byte 80 := ⟨(defaultFontLow ++ defaultFontHigh).toArray, rfl⟩

/-- The spec's defaults: STACK_DEPTH = 16 and the customary font (R6, R243). -/
def default : Config where
  depthAbove12 := 4
  font := defaultFont

/-- The byte `rand` that the environment supplies to the k-th execution of `Cxnn` (R145): a free
value, "a free 8-bit input of this step", "drawn anew at every execution of Cxnn and under no
law". It has no body: nothing can be proved about what it is. DESIGN CHOICE (log entry 1). -/
opaque freeRand : Nat → Byte

end Config

end Sys2Proof
end

