-- ==== Sys2Proof/Machine/State.lean ====
section
/-! DEFINITION. The state of the machine as plain data (spec/10_state.md), the host's events
(spec/00_scope.md R8), and the state after reset (R45). -/

namespace Sys2Proof.Machine

/-- `run_state` (R39). -/
inductive RunState where
  | running
  /-- "entered by `FX0A`, exited when `wait_for_key` returns" -/
  | waitingForKey
  /-- "terminal" -/
  | halted
  deriving DecidableEq, Repr

/-- `fault_code` (R41, R201): why the core is Halted. The values 6 and 7 are never produced and
do not exist here (U17). -/
inductive FaultCode where
  /-- Running, WaitingForKey, or Halted by `Quit`. -/
  | none
  /-- A fetch, a data access or a program load that does not fit the memory. -/
  | addressOutOfRange
  /-- In the taxonomy of R200 and never raised (R202). -/
  | invalidRegisterIndex
  /-- `2nnn` with a full call stack. -/
  | stackOverflow
  /-- `00EE` with an empty call stack. -/
  | stackUnderflow
  /-- The fetched word is no instruction. -/
  | unimplementedOpcode
  deriving DecidableEq, Repr

/-- `raise E(info)` (R11, R201): a failure and its datum. -/
structure Raise where
  code : FaultCode
  info : Word
  deriving DecidableEq, Repr

/-- A key code 0x0 to 0xF (R5, R181). -/
abbrev Key := Fin 16

/-- The host events of R8: the only inputs the core answers. -/
inductive HostEvent where
  | reset
  | loadProgram (bytes : List Byte)
  | cycle
  | tick
  | keyDown (k : Key)
  | keyUp (k : Key)
  | quit
  deriving DecidableEq, Repr

/-- The framebuffer, 32 rows of 64 pixels, row index first (R37). -/
abbrev Framebuffer := Vector (Vector Bool 64) 32

/-- The memory: the cells that differ from the reset contents, addresses strictly rising
(`Memory.wf` of Machine/Ops.lean). -/
abbrev Memory := List Host.Cell

/-- Everything the spec gives the machine, and three fields of the model's own at the end. -/
structure State where
  /-- `V[0]` to `V[15]`; `VF` is `V[15]` (R20, R21). -/
  v : Vector Byte 16
  /-- `I` (R23). -/
  i : Word
  /-- `PC` (R24). -/
  pc : Word
  /-- `STACK`; the cells at index STACK_DEPTH and above do not exist and nothing reaches them (R30). -/
  stack : Vector Word 16
  /-- `SP`, the number of return addresses held (R30). -/
  sp : Fin 17
  /-- `DT` (R34). -/
  dt : Byte
  /-- `ST` (R35). -/
  st : Byte
  /-- `MEM` (R36). -/
  mem : Memory
  /-- `FB` (R37). -/
  fb : Framebuffer
  /-- `KEYS`, bit k set when key k is pressed (R38). -/
  keys : BitVec 16
  /-- `run_state` (R39). -/
  runState : RunState
  /-- `wait_x` (R40). -/
  waitX : Reg
  /-- `fault_code` (R41). -/
  faultCode : FaultCode
  /-- `fault_info` (R42). -/
  faultInfo : Word
  /-- The model's own: the parameters STACK_DEPTH and FONT (R6; log entry 3). -/
  cfg : Config
  /-- The model's own: how many `rand` bytes have been drawn (R145; log entry 1). -/
  draws : Nat
  /-- The model's own: the host events to come, the first one first; when the list is empty the
  next event is a `Cycle` (R8; log entry 2). -/
  events : List HostEvent
  deriving DecidableEq, Repr

/-- Faults of the MODEL: none. Every failure the spec names has an entry it describes (R204) and is
taken as a next state, Halted with `fault_code` and `fault_info`. Nothing raises a value of this
type; that is safe (log entry 8). -/
inductive Fault : Type
  deriving DecidableEq, Repr

/-- Refusals of the model. -/
inductive Refusal where
  /-- The arm of `exec` of an instruction that has no meaning yet; no arm raises it now. Safe: the
  machine stops where the hardware goes on. -/
  | notModelled (mnemonic : String)
  deriving DecidableEq, Repr

/-- The reset values of R45 for a machine with the parameters `c`. PC, memory and framebuffer are
the document's; the zeros are the spec's own (D9; log entry 4); the stack cells and `wait_x`
are unspecified and unobservable, here zero (log entry 5); `KEYS` is what a host that has
reported nothing has (log entry 6). -/
def State.resetWith (c : Config) : State where
  v := Vector.replicate 16 0
  i := 0
  pc := 0x200
  stack := Vector.replicate 16 0
  sp := 0
  dt := 0
  st := 0
  mem := []
  fb := Vector.replicate 32 (Vector.replicate 64 false)
  keys := 0
  runState := .running
  waitX := 0
  faultCode := .none
  faultInfo := 0
  cfg := c
  draws := 0
  events := []

/-- The machine right after reset, with the spec's default parameters (R6, R45). -/
def State.reset : State := State.resetWith Config.default

end Sys2Proof.Machine
end

