-- ==== Sys2Proof/Machine/Ops.lean ====
section
/-! DEFINITION. The named operations over memory, registers, stack, framebuffer and keypad that
the meanings share, and fault entry. Reads are of the state given, writes build a new one; a
failing operation answers a `Raise` and the whole instruction is then discarded (spec/00_scope.md
R12, spec/60_exceptions.md R204). -/

namespace Sys2Proof

/-- What an address reads as when nothing has been written there: the reset contents, zero but for
FONT at 0x050 (spec/10_state.md R45, spec/20_memory.md R55; log entry 7). -/
def Config.resetByte (c : Config) (a : Nat) : Byte :=
  if Config.fontBase ≤ a then (c.font.toList[a - Config.fontBase]?).getD 0 else 0

namespace Machine

/-! ## Memory as a list of cells; `bg` gives what an unlisted address reads as -/

/-- One byte. -/
def Memory.read (bg : Nat → Byte) : Memory → Nat → Byte
  | [], a => bg a
  | (b, w) :: rest, a => if a = b then w else Memory.read bg rest a

/-- Write one byte and keep the canonical form: rising addresses, no cell that only repeats what an
unlisted address reads as. -/
def Memory.write (bg : Nat → Byte) : Memory → Nat → Byte → Memory
  | [], a, x => if x = bg a then [] else [(a, x)]
  | (b, w) :: rest, a, x =>
    if a < b then
      if x = bg a then (b, w) :: rest else (a, x) :: (b, w) :: rest
    else if a = b then
      if x = bg a then rest else (a, x) :: rest
    else (b, w) :: Memory.write bg rest a x

/-- The n bytes at `a`, first byte first. -/
def Memory.readRange (bg : Nat → Byte) (m : Memory) : Nat → Nat → List Byte
  | _, 0 => []
  | a, n + 1 => Memory.read bg m a :: Memory.readRange bg m (a + 1) n

/-- Write the bytes at `a`, `a + 1`, … -/
def Memory.writeRange (bg : Nat → Byte) (m : Memory) : Nat → List Byte → Memory
  | _, [] => m
  | a, x :: xs => Memory.writeRange bg (Memory.write bg m a x) (a + 1) xs

/-- The canonical form of the cells at and above `lo`. -/
def Memory.wfFrom (bg : Nat → Byte) : Nat → Memory → Bool
  | _, [] => true
  | lo, (a, x) :: rest =>
    decide (lo ≤ a) && decide (a < Config.memSize) && (x != bg a) && Memory.wfFrom bg (a + 1) rest

/-- The canonical form: addresses strictly rising, each below 4096, no cell equal to what an
unlisted address reads as. -/
def Memory.wf (bg : Nat → Byte) (m : Memory) : Bool := Memory.wfFrom bg 0 m

/-- `MEM` replaced. -/
def State.setMem (s : State) (m : Memory) : State := { s with mem := m }

/-- `MEM[a]` (R36). -/
def State.readByte (s : State) (a : Nat) : Byte := Memory.read s.cfg.resetByte s.mem a

/-- The memory of the state is in canonical form. -/
def State.memWf (s : State) : Bool := Memory.wf s.cfg.resetByte s.mem

/-- An access of `n` bytes at `addr` is valid exactly when `addr + n <= 4096` (R51). -/
def accessFits (addr : Word) (n : Nat) : Bool := decide (addr.toNat + n ≤ Config.memSize)

/-- `raise AddressOutOfRange(addr)` (R52, R53, R201). -/
def outOfRange (addr : Word) : Raise := ⟨.addressOutOfRange, addr⟩

/-- `MemRead(addr, n)` (R52). -/
def State.memRead (s : State) (addr : Word) (n : Nat) : Except Raise (List Byte) :=
  if accessFits addr n then .ok (Memory.readRange s.cfg.resetByte s.mem addr.toNat n)
  else .error (outOfRange addr)

/-- `MemWrite(addr, n, v)` with `n` the number of bytes given; the whole access is checked before
any byte is written (R53). -/
def State.memWrite (s : State) (addr : Word) (bytes : List Byte) : Except Raise State :=
  if accessFits addr bytes.length then
    .ok (s.setMem (Memory.writeRange s.cfg.resetByte s.mem addr.toNat bytes))
  else .error (outOfRange addr)

/-! ## Registers -/

/-- `V[r]` (R20). -/
def State.reg (s : State) (r : Reg) : Byte := s.v[r]

/-- `V[r] <- b` (R20). -/
def State.setReg (s : State) (r : Reg) (b : Byte) : State := { s with v := s.v.set r.val b }

/-- The index of `VF`, the register every flag goes to (R21, R22). -/
def regVF : Reg := 15

/-- All of `V[0]` to `V[15]` replaced. -/
def State.setRegs (s : State) (v : Vector Byte 16) : State := { s with v := v }

/-- Write the bytes to `V[k]`, `V[k + 1]`, …; an index past `VF` does not exist. -/
def writeRegs (v : Vector Byte 16) : Nat → List Byte → Vector Byte 16
  | _, [] => v
  | k, b :: bs => writeRegs (v.setIfInBounds k b) (k + 1) bs

/-- `I <- w` (R23). -/
def State.setI (s : State) (w : Word) : State := { s with i := w }

/-- `PC <- w` (R24). -/
def State.setPc (s : State) (w : Word) : State := { s with pc := w }

/-- `DT <- b` (R34). -/
def State.setDt (s : State) (b : Byte) : State := { s with dt := b }

/-- `ST <- b` (R35). -/
def State.setSt (s : State) (b : Byte) : State := { s with st := b }

/-- One more `rand` byte has been drawn (R145; log entry 1). -/
def State.countDraw (s : State) : State := { s with draws := s.draws + 1 }

/-- `PC <- PC + 2`, the normal advance (R25, R96). -/
def State.advance (s : State) : State := s.setPc (s.pc + 2)

/-- "skip next instruction": `PC + 4` when the condition holds, else `PC + 2` (R96). -/
def State.skipIf (s : State) (c : Bool) : State := s.setPc (s.pc + if c then 4 else 2)

/-! ## Call stack (R30 to R32) -/

/-- The cells and `SP` replaced. -/
def State.setStack (s : State) (cells : Vector Word 16) (sp : Fin 17) : State :=
  { s with stack := cells, sp := sp }

/-- `Push(v)` (R31). Overflow is raised whenever `SP` is not below STACK_DEPTH; a larger `SP` never
occurs (log entry 9). -/
def State.push (s : State) (w : Word) : Except Raise State :=
  if s.sp.val < s.cfg.stackDepth then
    .ok (s.setStack (s.stack.setIfInBounds s.sp.val w) (s.sp + 1))
  else .error ⟨.stackOverflow, BitVec.ofNat 16 s.sp.val⟩

/-- The cell below the stack pointer: `STACK[SP - 1]` (R32). Used only when `SP` is not 0. -/
def State.top (s : State) : Word := s.stack[s.sp.val - 1]

/-- `Pop()`: the address and the state with `SP` one less; the cell keeps its content (R32). -/
def State.pop (s : State) : Except Raise (Word × State) :=
  if s.sp = 0 then .error ⟨.stackUnderflow, 0⟩
  else .ok (s.top, s.setStack s.stack (s.sp - 1))

/-! ## Framebuffer (R37) -/

/-- `FB[r][c]`. -/
def Framebuffer.pixel (fb : Framebuffer) (r : Fin 32) (c : Fin 64) : Bool := fb[r][c]

/-- `FB[r][c] <- b`. -/
def Framebuffer.setPixel (fb : Framebuffer) (r : Fin 32) (c : Fin 64) (b : Bool) : Framebuffer :=
  fb.set r.val (fb[r].set c.val b)

/-- The grid `clear()` leaves (R170). -/
def Framebuffer.clear : Framebuffer := Vector.replicate 32 (Vector.replicate 64 false)

/-- `FB[r][c]` of a state. -/
def State.pixel (s : State) (r : Fin 32) (c : Fin 64) : Bool := s.fb.pixel r c

/-- `FB` replaced. -/
def State.setFb (s : State) (fb : Framebuffer) : State := { s with fb := fb }

/-! ## Keypad (R38, R180) -/

/-- Key `k` is in the set of pressed keys (R38). -/
def State.keyIsDown (s : State) (k : Key) : Bool := s.keys.getLsbD k.val

/-- The keypad state with bit `k` set (R181). -/
def pressKey (keys : BitVec 16) (k : Key) : BitVec 16 := keys ||| (1#16 <<< k.val)

/-- The keypad state with bit `k` cleared (R182). -/
def releaseKey (keys : BitVec 16) (k : Key) : BitVec 16 := keys &&& ~~~(1#16 <<< k.val)

/-- `KEYS` replaced. -/
def State.setKeys (s : State) (ks : BitVec 16) : State := { s with keys := ks }

/-- `wait_x <- x; run_state <- WaitingForKey` (R185). -/
def State.suspend (s : State) (x : Reg) : State := { s with waitX := x, runState := .waitingForKey }

/-- `run_state <- Running` (R185). -/
def State.resume (s : State) : State := { s with runState := .running }

/-! ## Fault entry, and the one way out of Halted -/

/-- The core stops (R204, R212): Halted, with a code and a datum. -/
def State.halt (s : State) (code : FaultCode) (info : Word) : State :=
  { s with runState := .halted, faultCode := code, faultInfo := info }

/-- Fault entry (R204): Halted, the code and the datum recorded, nothing else changed; `PC` still
addresses the faulting instruction. There is no vector and no handler. -/
def State.takeFault (s : State) (e : Raise) : State := s.halt e.code e.info

/-- The end of a handler (R91, R97): its writes are committed, or, when it raised, all of them are
discarded and the fault is entered from the state before the instruction. -/
def State.commit (s : State) (r : Except Raise State) : Host.Outcome State Fault Refusal :=
  match r with
  | .ok t => .next t
  | .error e => .next (s.takeFault e)

/-- The return from a fault: there is no such instruction (R210); the only exit from Halted is the
`Reset` event, which sets every item of state to its reset value and leaves `KEYS` to the host
(R240). The model's own fields stay: the parameters, the draw count, the events to come. -/
def State.restart (s : State) : State :=
  { State.resetWith s.cfg with keys := s.keys, draws := s.draws, events := s.events }

/-! ## Fetch -/

/-- `b = MemRead(PC, 2); op = b[0] * 256 + b[1]` (R91, R93). -/
def State.fetch (s : State) : Except Raise Word :=
  match s.memRead s.pc 2 with
  | .ok b => .ok (beWord b)
  | .error e => .error e

end Machine
end Sys2Proof
end

