-- ==== Sys2Proof/Machine/Flags.lean ====
section
/-! DEFINITION. The flag computations (spec/10_state.md R22, spec/43_alu.md R136 to R140) and the
order in which a flag and a result are written (R99, R148). -/

namespace Sys2Proof.Machine

/-- A flag's value in `VF`: 0x01 or 0x00 (R22, D12). -/
def flagByte (c : Bool) : Byte := if c then 1 else 0

/-- Carry out of `8xy4`: the sum exceeds 255 (R136). -/
def carryOut (a b : Byte) : Bool := decide (255 < a.toNat + b.toNat)

/-- No borrow in `a - b`: `a >= b` (R137, R139). -/
def noBorrow (a b : Byte) : Bool := decide (b.toNat ≤ a.toNat)

/-- The bit a right shift drops: bit 0 (R138). -/
def shiftedOutRight (b : Byte) : Bool := b.getLsbD 0

/-- The bit a left shift drops: bit 7 (R140). -/
def shiftedOutLeft (b : Byte) : Bool := b.getLsbD 7

/-- `V[15] <- flag` (R22). -/
def State.setFlag (s : State) (c : Bool) : State := s.setReg regVF (flagByte c)

/-- Flag first, result second; the last write to a register stays, so with `x = 0xF` the result
remains and the flag is lost (R99, R148, D3; log entry 12). -/
def State.setFlagThenReg (s : State) (c : Bool) (x : Reg) (b : Byte) : State :=
  (s.setFlag c).setReg x b

end Sys2Proof.Machine
end

