-- ==== Sys2Proof/Machine/Operands.lean ====
section
/-! DEFINITION. Operand forms (spec/30_encoding.md R77: "The machine has no other operand form"):
registers, the immediates, the address `I + k` and the font address; the register-file contract;
the sprite's bits and where they land. -/

namespace Sys2Proof.Machine

/-- The register file's contract on an index: "fails with `InvalidRegisterIndex` if index > 15"
(R20). The decoder's indices are 4-bit fields, so no instruction fails here (R202). -/
def registerIndex (n : Nat) : Except FaultCode Reg :=
  if h : n < 16 then .ok ⟨n, h⟩ else .error .invalidRegisterIndex

/-- `zext_16(nnn)` (R77). -/
def addrImm (nnn : Addr12) : Word := nnn.setWidth 16

/-- `zext_16` of a register's byte (R113, R151, R152). -/
def byteWord (b : Byte) : Word := b.setWidth 16

/-- The target of `Bnnn`: `zext_16(V[0]) + zext_16(nnn)`; at most 0x10FE, so no wrap (R113). -/
def indexedTarget (v0 : Byte) (nnn : Addr12) : Word := byteWord v0 + addrImm nnn

/-- The address of the glyph of a digit: `0x0050 + zext_16(V[x]) * 5`, all 8 bits used (R152). -/
def glyphAddr (b : Byte) : Word := BitVec.ofNat 16 Config.fontBase + byteWord b * 5

/-- `[V[0], …, V[x]]`, the registers `Fx55` stores (R154). -/
def State.regsUpTo (s : State) (x : Reg) : List Byte := s.v.toList.take (x.val + 1)

/-- The three decimal digits of a byte, hundreds first, by integer division (R153). -/
def bcdDigits (b : Byte) : List Byte :=
  [BitVec.ofNat 8 (b.toNat / 100), BitVec.ofNat 8 (b.toNat / 10 % 10), BitVec.ofNat 8 (b.toNat % 10)]

/-- `KeyPressed(v)`: true exactly when `v <= 15` and bit `v` of `KEYS` is set (R180). -/
def State.keyPressed (s : State) (b : Byte) : Bool :=
  decide (b.toNat ≤ 15) && s.keys.getLsbD b.toNat

/-- `(y + j) mod 32`, the row a sprite's row `j` lands on (R174). -/
def targetRow (y0 : Byte) (j : Nat) : Fin 32 := ⟨(y0.toNat + j) % 32, Nat.mod_lt _ (by decide)⟩

/-- `(x + i) mod 64`, the column a sprite's column `i` lands on (R174). -/
def targetCol (x0 : Byte) (i : Nat) : Fin 64 := ⟨(x0.toNat + i) % 64, Nat.mod_lt _ (by decide)⟩

/-- The bit of column `i`, 0 to 7, of a sprite's row byte: bit 7 is the leftmost column (R175;
PRESUMED, from general knowledge, D11, log entry 13). -/
def spriteBit (rowByte : Byte) (i : Nat) : Bool := rowByte.getLsbD (7 - i)

end Sys2Proof.Machine
end

