-- ==== Sys2Proof/Machine/Alu.lean ====
section
/-! DEFINITION. Register load, arithmetic, logic, shift and random (spec/43_alu.md). Results wrap
modulo 256 (R147); only `8xy4`, `8xy5`, `8xy6`, `8xy7`, `8xyE` write a flag (R148). -/

namespace Sys2Proof.Machine

/-- `V[x] <- b; PC <- PC + 2`: the end of every instruction of this file that writes no flag. -/
def State.result (s : State) (x : Reg) (b : Byte) : Host.Outcome State Fault Refusal :=
  s.commit (.ok (s.setReg x b).advance)

/-- `V[15] <- flag; V[x] <- b; PC <- PC + 2` (R148). -/
def State.flagResult (s : State) (c : Bool) (x : Reg) (b : Byte) : Host.Outcome State Fault Refusal :=
  s.commit (.ok (s.setFlagThenReg c x b).advance)

/-- `6xnn` (R130). -/
def execLdByte (x : Reg) (nn : Byte) (s : State) : Host.Outcome State Fault Refusal :=
  s.result x nn

/-- `7xnn` (R131): no flag. -/
def execAddByte (x : Reg) (nn : Byte) (s : State) : Host.Outcome State Fault Refusal :=
  s.result x (s.reg x + nn)

/-- `8xy0` (R132). -/
def execLdReg (x y : Reg) (s : State) : Host.Outcome State Fault Refusal :=
  s.result x (s.reg y)

/-- `8xy1` (R133): no flag. -/
def execOrReg (x y : Reg) (s : State) : Host.Outcome State Fault Refusal :=
  s.result x (s.reg x ||| s.reg y)

/-- `8xy2` (R134): no flag. -/
def execAndReg (x y : Reg) (s : State) : Host.Outcome State Fault Refusal :=
  s.result x (s.reg x &&& s.reg y)

/-- `8xy3` (R135): no flag. -/
def execXorReg (x y : Reg) (s : State) : Host.Outcome State Fault Refusal :=
  s.result x (s.reg x ^^^ s.reg y)

/-- `8xy4` (R136). -/
def execAddReg (x y : Reg) (s : State) : Host.Outcome State Fault Refusal :=
  s.flagResult (carryOut (s.reg x) (s.reg y)) x (s.reg x + s.reg y)

/-- `8xy5` (R137): `V[x] - V[y]`. -/
def execSubReg (x y : Reg) (s : State) : Host.Outcome State Fault Refusal :=
  s.flagResult (noBorrow (s.reg x) (s.reg y)) x (s.reg x - s.reg y)

/-- `8xy6` (R138): shifts `V[y]`; the old `V[x]` is not used. -/
def execShrReg (x y : Reg) (s : State) : Host.Outcome State Fault Refusal :=
  s.flagResult (shiftedOutRight (s.reg y)) x (s.reg y >>> 1)

/-- `8xy7` (R139): `V[y] - V[x]`. -/
def execSubnReg (x y : Reg) (s : State) : Host.Outcome State Fault Refusal :=
  s.flagResult (noBorrow (s.reg y) (s.reg x)) x (s.reg y - s.reg x)

/-- `8xyE` (R140): shifts `V[y]`; the old `V[x]` is not used. -/
def execShlReg (x y : Reg) (s : State) : Host.Outcome State Fault Refusal :=
  s.flagResult (shiftedOutLeft (s.reg y)) x (s.reg y <<< 1)

/-- `Cxnn` with the draw `rand` given (R145): `V[x] <- rand & nn`. -/
def State.withRandom (s : State) (rand : Byte) (x : Reg) (nn : Byte) : State :=
  (s.setReg x (rand &&& nn)).advance.countDraw

/-- `Cxnn` (R145): the draw is the free value of this execution (log entry 1). -/
def execRnd (x : Reg) (nn : Byte) (s : State) : Host.Outcome State Fault Refusal :=
  s.commit (.ok (s.withRandom (Config.freeRand s.draws) x nn))

end Sys2Proof.Machine
end

