-- ==== Sys2Proof/Machine/Display.lean ====
section
/-! DEFINITION. Display instructions and the collision detector (spec/45_display.md). -/

namespace Sys2Proof.Machine

/-- A framebuffer being drawn on, and whether a pixel has gone from 1 to 0 so far. -/
structure Drawing where
  fb : Framebuffer
  collision : Bool
  deriving DecidableEq, Repr

/-- One pixel of the sprite (R172, R173): row `j`, column `i`, of a row byte. `old` is the
framebuffer before the instruction, which every read of the pseudocode denotes (R12, R174). -/
def drawPixel (old : Framebuffer) (x0 y0 rowByte : Byte) (j i : Nat) (d : Drawing) : Drawing :=
  let was := old.pixel (targetRow y0 j) (targetCol x0 i)
  let bit := spriteBit rowByte i
  { fb := d.fb.setPixel (targetRow y0 j) (targetCol x0 i) (was ^^ bit)
    collision := d.collision || (was && bit) }

/-- The first `k` columns of a row (R172). -/
def drawCols (old : Framebuffer) (x0 y0 rowByte : Byte) (j : Nat) : Nat → Drawing → Drawing
  | 0, d => d
  | k + 1, d => drawPixel old x0 y0 rowByte j k (drawCols old x0 y0 rowByte j k d)

/-- The rows from row `j` on, eight columns each (R172). -/
def drawRows (old : Framebuffer) (x0 y0 : Byte) : Nat → List Byte → Drawing → Drawing
  | _, [], d => d
  | j, b :: bs, d => drawRows old x0 y0 (j + 1) bs (drawCols old x0 y0 b j 8 d)

/-- `draw_sprite(x, y, sprite_bytes) -> collision` (R170, R172 to R175). -/
def drawSprite (fb : Framebuffer) (x0 y0 : Byte) (rows : List Byte) : Drawing :=
  drawRows fb x0 y0 0 rows ⟨fb, false⟩

/-- `rows = if n = 0 then [] else MemRead(I, n)` (R172; R54: no zero-length access is made). -/
def State.spriteRows (s : State) (n : Rows) : Except Raise (List Byte) :=
  if n = 0 then .ok [] else s.memRead s.i n.val

/-- `00E0` (R171). -/
def execCls (s : State) : Host.Outcome State Fault Refusal :=
  s.commit (.ok (s.setFb Framebuffer.clear).advance)

/-- `Dxyn` (R172): `VF` is always written, also when `n = 0`. -/
def execDrw (x y : Reg) (n : Rows) (s : State) : Host.Outcome State Fault Refusal :=
  s.commit (match s.spriteRows n with
    | .ok rows =>
      let d := drawSprite s.fb (s.reg x) (s.reg y) rows
      .ok ((s.setFb d.fb).setFlag d.collision).advance
    | .error e => .error e)

end Sys2Proof.Machine
end

