-- ==== Sys2Proof/Machine/Flow.lean ====
section
/-! DEFINITION. Jump, call and return (spec/41_flow.md). -/

namespace Sys2Proof.Machine

/-- `00EE` (R110): `PC <- Pop()`, not advanced further. -/
def execRet (s : State) : Host.Outcome State Fault Refusal :=
  s.commit (match s.pop with
    | .ok (w, t) => .ok (t.setPc w)
    | .error e => .error e)

/-- `1nnn` (R111): `PC <- zext_16(nnn)`. -/
def execJp (nnn : Addr12) (s : State) : Host.Outcome State Fault Refusal :=
  s.commit (.ok (s.setPc (addrImm nnn)))

/-- `2nnn` (R112): `Push(PC + 2); PC <- nnn`. -/
def execCall (nnn : Addr12) (s : State) : Host.Outcome State Fault Refusal :=
  s.commit (match s.push (s.pc + 2) with
    | .ok t => .ok (t.setPc (addrImm nnn))
    | .error e => .error e)

/-- `Bnnn` (R113): `PC <- V[0] + nnn`, not reduced modulo 4096. -/
def execJpV0 (nnn : Addr12) (s : State) : Host.Outcome State Fault Refusal :=
  s.commit (.ok (s.setPc (indexedTarget (s.reg 0) nnn)))

end Sys2Proof.Machine
end

