-- ==== Sys2Proof/Machine/IndexMemory.lean ====
section
/-! DEFINITION. Index-register and memory instructions (spec/44_index_memory.md). `I` is never
modified by a load or a store (R156). -/

namespace Sys2Proof.Machine

/-- `Annn` (R150). -/
def execLdI (nnn : Addr12) (s : State) : Host.Outcome State Fault Refusal :=
  s.commit (.ok (s.setI (addrImm nnn)).advance)

/-- `Fx1E` (R151): modulo 65536, no flag. -/
def execAddIVx (x : Reg) (s : State) : Host.Outcome State Fault Refusal :=
  s.commit (.ok (s.setI (s.i + byteWord (s.reg x))).advance)

/-- `Fx29` (R152). -/
def execLdFVx (x : Reg) (s : State) : Host.Outcome State Fault Refusal :=
  s.commit (.ok (s.setI (glyphAddr (s.reg x))).advance)

/-- `MemWrite(I, …); PC <- PC + 2`: the stores of this file. -/
def State.storeAtI (s : State) (bytes : List Byte) : Host.Outcome State Fault Refusal :=
  s.commit (match s.memWrite s.i bytes with
    | .ok t => .ok t.advance
    | .error e => .error e)

/-- `Fx33` (R153). -/
def execLdBVx (x : Reg) (s : State) : Host.Outcome State Fault Refusal :=
  s.storeAtI (bcdDigits (s.reg x))

/-- `Fx55` (R154): `V[0]` to `V[x]`, inclusive. -/
def execLdMemVx (x : Reg) (s : State) : Host.Outcome State Fault Refusal :=
  s.storeAtI (s.regsUpTo x)

/-- `Fx65` (R155): `V[0]` to `V[x]`, inclusive. -/
def execLdVxMem (x : Reg) (s : State) : Host.Outcome State Fault Refusal :=
  s.commit (match s.memRead s.i (x.val + 1) with
    | .ok b => .ok (s.setRegs (writeRegs s.v 0 b)).advance
    | .error e => .error e)

end Sys2Proof.Machine
end

