-- ==== Sys2Proof/Machine/Keypad.lean ====
section
/-! DEFINITION. Keypad and timer instructions (spec/46_keypad_timers.md). -/

namespace Sys2Proof.Machine

/-- `Ex9E` (R183). -/
def execSkp (x : Reg) (s : State) : Host.Outcome State Fault Refusal :=
  s.commit (.ok (s.skipIf (s.keyPressed (s.reg x))))

/-- `ExA1` (R184). -/
def execSknp (x : Reg) (s : State) : Host.Outcome State Fault Refusal :=
  s.commit (.ok (s.skipIf (!s.keyPressed (s.reg x))))

/-- `Fx07` (R186). -/
def execLdVxDT (x : Reg) (s : State) : Host.Outcome State Fault Refusal :=
  s.commit (.ok (s.setReg x s.dt).advance)

/-- `Fx0A`, first half (R185): the wait begins; `PC` stays on the instruction. The second half is
the `KeyDown` event (Machine/Events.lean). -/
def execLdVxK (x : Reg) (s : State) : Host.Outcome State Fault Refusal :=
  s.commit (.ok (s.suspend x))

/-- `Fx15` (R187). -/
def execLdDTVx (x : Reg) (s : State) : Host.Outcome State Fault Refusal :=
  s.commit (.ok (s.setDt (s.reg x)).advance)

/-- `Fx18` (R188). -/
def execLdSTVx (x : Reg) (s : State) : Host.Outcome State Fault Refusal :=
  s.commit (.ok (s.setSt (s.reg x)).advance)

end Sys2Proof.Machine
end

