-- ==== Sys2Proof/Machine/Skip.lean ====
section
/-! DEFINITION. Compare and skip (spec/42_skip.md). They write nothing but `PC` (R124). -/

namespace Sys2Proof.Machine

/-- `3xnn` (R120). -/
def execSeByte (x : Reg) (nn : Byte) (s : State) : Host.Outcome State Fault Refusal :=
  s.commit (.ok (s.skipIf (s.reg x == nn)))

/-- `4xnn` (R121). -/
def execSneByte (x : Reg) (nn : Byte) (s : State) : Host.Outcome State Fault Refusal :=
  s.commit (.ok (s.skipIf (s.reg x != nn)))

/-- `5xy0` (R122). -/
def execSeReg (x y : Reg) (s : State) : Host.Outcome State Fault Refusal :=
  s.commit (.ok (s.skipIf (s.reg x == s.reg y)))

/-- `9xy0` (R123). -/
def execSneReg (x y : Reg) (s : State) : Host.Outcome State Fault Refusal :=
  s.commit (.ok (s.skipIf (s.reg x != s.reg y)))

end Sys2Proof.Machine
end

