-- ==== Sys2Proof/Machine/Events.lean ====
section
/-! DEFINITION. The seven host events (spec/00_scope.md R8) and the outputs (R9). Each event is
atomic and the core finishes its response before it takes the next (R8). -/

namespace Sys2Proof.Machine

/-- `Cycle` (R91, R92): in Running, fetch, decode, execute, the first failure being the fault
reported (R98); in WaitingForKey and Halted, nothing. -/
def State.cycle (s : State) : Host.Outcome State Fault Refusal :=
  match s.runState with
  | .running =>
    match s.fetch with
    | .error e => .next (s.takeFault e)
    | .ok op =>
      match decodeWord op with
      | .error _ => .next (s.takeFault ⟨.unimplementedOpcode, op⟩)
      | .ok i => exec i s
  | .waitingForKey => .next s
  | .halted => .next s

/-- A timer's count on a tick: one less, and a zero timer stays zero (R220). -/
def countDown (b : Byte) : Byte := if b = 0 then 0 else b - 1

/-- `Tick` (R220): both timers count, in Running only. -/
def State.tick (s : State) : State :=
  match s.runState with
  | .running => (s.setDt (countDown s.dt)).setSt (countDown s.st)
  | .waitingForKey => s
  | .halted => s

/-- The second half of `Fx0A` (R185): `V[wait_x] <- zext_8(k); PC <- PC + 2; run_state <- Running`. -/
def State.completeWait (s : State) (k : Key) : State :=
  (s.setReg s.waitX (BitVec.ofNat 8 k.val)).advance.resume

/-- `KeyDown(k)` (R181): the bit of `KEYS`, and in WaitingForKey the end of the wait. -/
def State.keyDown (s : State) (k : Key) : State :=
  match s.runState with
  | .running => s.setKeys (pressKey s.keys k)
  | .waitingForKey => (s.setKeys (pressKey s.keys k)).completeWait k
  | .halted => s.setKeys (pressKey s.keys k)

/-- `KeyUp(k)` (R182): the bit of `KEYS`, nothing else, in every state. -/
def State.keyUp (s : State) (k : Key) : State := s.setKeys (releaseKey s.keys k)

/-- `Quit` (R212): an orderly halt from Running or WaitingForKey, with
`fault_code` and `fault_info` 0; in Halted it changes nothing
(R213). -/
def State.quit (s : State) : State :=
  match s.runState with
  | .running => s.halt .none 0
  | .waitingForKey => s.halt .none 0
  | .halted => s

/-- `LoadProgram(bytes)` (R246): in Running, at 0x200; a sequence that does not fit halts the core
and writes nothing; an empty one changes nothing. -/
def State.loadProgram (s : State) (bytes : List Byte) : State :=
  match s.runState with
  | .running =>
    if bytes = [] then s
    else
      match s.memWrite Config.progBase bytes with
      | .ok t => t
      | .error e => s.takeFault e
  | .waitingForKey => s
  | .halted => s

/-- The core's response to one event (R8). -/
def State.deliver (s : State) : HostEvent → Host.Outcome State Fault Refusal
  | .reset => .next s.restart
  | .loadProgram bytes => .next (s.loadProgram bytes)
  | .cycle => s.cycle
  | .tick => .next s.tick
  | .keyDown k => .next (s.keyDown k)
  | .keyUp k => .next (s.keyUp k)
  | .quit => .next s.quit

/-- The event the next step answers: the first of `events`, a `Cycle` when there is none
(log entry 2). -/
def State.nextEvent (s : State) : HostEvent := s.events.headD .cycle

/-- The state with that event taken from the list. -/
def State.dropEvent (s : State) : State := { s with events := s.events.tail }

/-! ## Events presented at once -/

/-- What an implementation with ports may present in one clock (R214). -/
structure Ports where
  reset : Bool
  quit : Bool
  keyUps : BitVec 16
  keyDowns : BitVec 16
  cycle : Bool
  tick : Bool
  deriving DecidableEq, Repr

/-- The keys of a port word, in ascending key number (R214). -/
def keysOf (ks : BitVec 16) : List Key := (List.finRange 16).filter fun k => ks.getLsbD k.val

/-- The order of R214: Reset, Quit, every KeyUp, every KeyDown, Cycle, Tick (D17; log entry 21). -/
def Ports.serialise (p : Ports) : List HostEvent :=
  (if p.reset then [.reset] else []) ++
  (if p.quit then [.quit] else []) ++
  (keysOf p.keyUps).map .keyUp ++
  (keysOf p.keyDowns).map .keyDown ++
  (if p.cycle then [.cycle] else []) ++
  (if p.tick then [.tick] else [])

/-! ## Outputs (R9) and the spec's numeric codes (R39, R41; D18) -/

/-- `snapshot`: the whole grid, row-major, origin top-left (R170). -/
def State.snapshot (s : State) : List (List Bool) := s.fb.toList.map Vector.toList

/-- `sound_active` (R9, R35). -/
def State.soundActive (s : State) : Bool := s.st != 0

/-- The suggested encoding of `run_state` (R39). -/
def RunState.code : RunState → BitVec 2
  | .running => 0
  | .waitingForKey => 1
  | .halted => 2

/-- The 3-bit value of `fault_code` (R41). -/
def FaultCode.code : FaultCode → BitVec 3
  | .none => 0
  | .addressOutOfRange => 1
  | .invalidRegisterIndex => 2
  | .stackOverflow => 3
  | .stackUnderflow => 4
  | .unimplementedOpcode => 5

/-! ## Placing an instruction where it will be fetched -/

/-- The state in which the next step is a `Cycle` that fetches the two bytes given: they stand at
`PC` (moved to 0x200 if no instruction could be fetched there), the core is Running, and a
`Cycle` comes before any event pending (log entry 20). -/
def State.placeAtFetch (s : State) (bytes : List Byte) : State :=
  let pc := if accessFits s.pc bytes.length then s.pc else Config.progBase
  { s with
    pc := pc
    mem := Memory.writeRange s.cfg.resetByte s.mem pc.toNat bytes
    runState := .running
    events := if s.events = [] then [] else .cycle :: s.events }

end Sys2Proof.Machine
end

