-- ==== Sys2Proof/Machine/Step.lean ====
section
/-! DEFINITION. One step of the machine: the response to one host event (spec/00_scope.md R7, R8). -/

namespace Sys2Proof.Machine

/-- Answer the next host event (R8; log entry 2). -/
def step (s : State) : Host.Outcome State Fault Refusal := s.dropEvent.deliver s.nextEvent

/-- `s` with the table word placed where the next step fetches its instruction (log entry 20). -/
def State.withFetchWord (s : State) (nbits w : Nat) : State := s.placeAtFetch (tableWordBytes nbits w)

end Sys2Proof.Machine
end

