-- ==== Sys2Proof/Safety.lean ====
section
/-! DEFINITION. The words in which claims about the machine are stated: what a run that is safe
means, what an instruction leaves unchanged, which word an instruction has, which pixels a sprite
covers, and the invariant of every reachable state. -/

namespace Sys2Proof

/-- The six instructions that write `VF` as a flag (spec/10_state.md R22). -/
def Instr.writesFlag : Instr → Prop
  | .addReg _ _ | .subReg _ _ | .shrReg _ _ | .subnReg _ _ | .shlReg _ _ | .drw _ _ _ => True
  | .cls | .ret | .jp _ | .call _ | .jpV0 _ | .ldI _ => False
  | .seByte _ _ | .sneByte _ _ | .ldByte _ _ | .addByte _ _ | .rnd _ _ => False
  | .seReg _ _ | .sneReg _ _ | .ldReg _ _ | .orReg _ _ | .andReg _ _ | .xorReg _ _ => False
  | .skp _ | .sknp _ | .ldVxDT _ | .ldVxK _ | .ldDTVx _ | .ldSTVx _ => False
  | .addIVx _ | .ldFVx _ | .ldBVx _ | .ldMemVx _ | .ldVxMem _ => False

/-- The register an instruction names as its destination `x`, if it has one (spec/43_alu.md,
spec/46_keypad_timers.md R186). `Fx65` loads all registers up to `x`; `Fx0A` writes its register
at the key event. -/
def Instr.dest : Instr → Option Reg
  | .ldByte x _ | .addByte x _ | .rnd x _ => some x
  | .ldReg x _ | .orReg x _ | .andReg x _ | .xorReg x _ => some x
  | .addReg x _ | .subReg x _ | .shrReg x _ | .subnReg x _ | .shlReg x _ => some x
  | .ldVxDT x => some x
  | .ldVxMem x => some x
  | .cls | .ret | .jp _ | .call _ | .jpV0 _ | .ldI _ | .drw _ _ _ => none
  | .seByte _ _ | .sneByte _ _ | .seReg _ _ | .sneReg _ _ | .skp _ | .sknp _ => none
  | .ldVxK _ | .ldDTVx _ | .ldSTVx _ | .addIVx _ | .ldFVx _ | .ldBVx _ | .ldMemVx _ => none

namespace Machine

/-- A clean end of a run (spec/40_cycle.md R100): Halted with `fault_code = 0`, by `Quit`. -/
def State.cleanEnd (s : State) : Prop := s.runState = .halted ∧ s.faultCode = .none

/-- What an instruction may change besides `PC`: the registers listed, the bytes of memory from
`memFrom` on, `memLen` of them, and the other parts marked. -/
structure Touched where
  regs : List Reg := []
  index : Bool := false
  delayTimer : Bool := false
  soundTimer : Bool := false
  stack : Bool := false
  memFrom : Nat := 0
  memLen : Nat := 0
  screen : Bool := false
  wait : Bool := false
  draws : Bool := false

/-- Everything outside `w` and `PC` is in `t` as it is in `s`: every register, `I`, the timers, the
stack and its pointer, every byte of memory, every pixel, the keypad, the run state, the wait
latch, the fault registers, the parameters and the events to come. -/
structure Unchanged (w : Touched) (s t : State) : Prop where
  regs : ∀ r, r ∉ w.regs → t.reg r = s.reg r
  index : w.index = false → t.i = s.i
  delayTimer : w.delayTimer = false → t.dt = s.dt
  soundTimer : w.soundTimer = false → t.st = s.st
  stack : w.stack = false → t.sp = s.sp ∧ ∀ k : Fin 16, t.stack[k] = s.stack[k]
  mem : ∀ a, a < w.memFrom ∨ w.memFrom + w.memLen ≤ a → t.readByte a = s.readByte a
  screen : w.screen = false → ∀ r c, t.pixel r c = s.pixel r c
  keys : t.keys = s.keys
  wait : w.wait = false → t.runState = s.runState ∧ t.waitX = s.waitX
  faults : t.faultCode = s.faultCode ∧ t.faultInfo = s.faultInfo
  draws : w.draws = false → t.draws = s.draws
  model : t.cfg = s.cfg ∧ t.events = s.events

/-- The instruction has the match and mask of its row (spec/30_encoding.md R73), and its word decodes
to it. -/
def EncodedAs (i : Instr) (matchBits mask : Word) : Prop :=
  encodeWord i &&& mask = matchBits ∧ decodeWord (encodeWord i) = .ok i

/-- Fault entry (spec/60_exceptions.md R204): Halted, code and datum recorded, nothing else changed. -/
def State.faulted (s : State) (code : FaultCode) (info : Word) : State :=
  { s with runState := .halted, faultCode := code, faultInfo := info }

/-- Pixel (r, c) gets a 1 bit of the sprite that `Dxyn` draws from state `s` (spec/45_display.md
R172, R174, R175): some row `j` and column `i` of the sprite land on it and the bit is 1. -/
def Covered (s : State) (x y : Reg) (n : Rows) (r : Fin 32) (c : Fin 64) : Prop :=
  ∃ j i : Nat, j < n.val ∧ i < 8 ∧
    r.val = ((s.reg y).toNat + j) % 32 ∧ c.val = ((s.reg x).toNat + i) % 64 ∧
    (s.readByte (s.i.toNat + j)).getLsbD (7 - i) = true

/-- The value of the byte at `a` once `len` bytes have been stored from `I` on, the k-th of value
`value k` (spec/20_memory.md R53): the byte stored there, or the byte that was there. -/
def State.byteAfterStore (s : State) (len : Nat) (value : Nat → Nat) (a : Nat) : Nat :=
  if s.i.toNat ≤ a ∧ a < s.i.toNat + len then value (a - s.i.toNat) else (s.readByte a).toNat

/-- The value of `V[k]`, the k-th byte that `Fx55` stores (spec/44_index_memory.md R154). -/
def State.regValue (s : State) (k : Nat) : Nat := if h : k < 16 then (s.reg ⟨k, h⟩).toNat else 0

/-- The k-th decimal digit that `Fx33` stores, hundreds first (R153). -/
def digitValue (b : Byte) : Nat → Nat
  | 0 => b.toNat / 100
  | 1 => b.toNat / 10 % 10
  | _ => b.toNat % 10

/-- What holds of every state the machine can reach. -/
structure State.Inv (s : State) : Prop where
  /-- The memory is in canonical form. -/
  memWf : s.memWf = true
  /-- `0 <= SP <= STACK_DEPTH` (spec/10_state.md R30). -/
  spLe : s.sp.val ≤ s.cfg.stackDepth
  /-- The largest value any instruction writes to `PC` is `Bnnn`'s 0x10FE (R26). -/
  pcLe : s.pc.toNat ≤ 0x10FE
  /-- A return address held is at most 0x1000 (spec/41_flow.md R112). -/
  cellsLe : ∀ k : Fin 16, k.val < s.sp.val → (s.stack[k]).toNat ≤ 0x1000
  /-- `fault_code != 0` implies Halted (spec/10_state.md R41). -/
  faultHalted : s.faultCode ≠ .none → s.runState = .halted
  /-- Without a fault `fault_info` is 0 (spec/60_exceptions.md R201). -/
  noFaultNoInfo : s.faultCode = .none → s.faultInfo = 0
  /-- During a key wait `PC` addresses an `Fx0A` whose `x` is `wait_x` (R40). -/
  waiting : s.runState = .waitingForKey →
    ∃ op, s.fetch = .ok op ∧ decodeWord op = .ok (.ldVxK s.waitX)

end Machine
end Sys2Proof
end

