-- ==== Sys2Proof/Certificates/Slice0/Obligations.lean ====
section
/-! DEFINITION. The statements for the provers. Each says what a rule of the spec says; where a clause
rests on a decision the spec marks as its own, the docstring names it. Results are stated on
numbers (`toNat`), pixels and bytes, not by repeating the meaning. -/

open Sys2Proof Sys2Proof.Machine

/-! ## Encoding and decoding -/

/-- R71, R73: decoding an encoded instruction gives it back, for every instruction and every value of
every operand, from the word and from the bytes, whatever bytes follow. -/
def Obligations.DecodeOfEncodeIsTheInstruction : Prop :=
  (∀ i : Instr, decodeWord (encodeWord i) = .ok i) ∧
  ∀ (i : Instr) (rest : List Byte), decode (encode i ++ rest) = .ok (i, rest)

/-- R73: each implemented word has one meaning, so encoding a decoded word gives the word back. It holds
because every literal digit of a pattern is matched, which is the spec's own decision D2 (R74, log entry
18). -/
def Obligations.EncodeOfDecodeIsTheWord : Prop :=
  ∀ (w : Word) (i : Instr), decodeWord w = .ok i → encodeWord i = w

/-- R94: decode returns the one row that the word matches, with its operand fields cut from the word's
bits, or rejects the word when no row matches. It is a function of the word alone. The rows and
their masks are R73's (the spec's own decisions D1, D2). -/
def Obligations.DecodeReturnsTheMatchingRow : Prop :=
  opcodeTable.length = 34 ∧
  ∀ w : Word,
    (∀ r ∈ opcodeTable, r.selectedBy w = true →
      ∃ i, decodeWord w = .ok i ∧ i.row = r ∧
        ∀ f ∈ i.fields, f.value = (w.toNat / 2 ^ f.lo) % 2 ^ (f.hi + 1 - f.lo)) ∧
    ((∀ r ∈ opcodeTable, r.selectedBy w = false) → decodeWord w = .error (.unimplementedOpcode w))

/-- R75: the words that are not instructions, exhaustively by class. That every `0nnn` but two is among
them is the spec's own decision D1, that every literal digit of a pattern is matched its D2 (log entry
18). -/
def Obligations.UnimplementedWordsByClass : Prop :=
  ∀ w : Word, decodeWord w = .error (.unimplementedOpcode w) ↔
    (w.toNat / 4096 = 0x0 ∧ w.toNat % 4096 ≠ 0x0E0 ∧ w.toNat % 4096 ≠ 0x0EE) ∨
    (w.toNat / 4096 = 0x5 ∧ w.toNat % 16 ≠ 0) ∨
    (w.toNat / 4096 = 0x8 ∧ 8 ≤ w.toNat % 16 ∧ w.toNat % 16 ≠ 0xE) ∨
    (w.toNat / 4096 = 0x9 ∧ w.toNat % 16 ≠ 0) ∨
    (w.toNat / 4096 = 0xE ∧ w.toNat % 256 ≠ 0x9E ∧ w.toNat % 256 ≠ 0xA1) ∨
    (w.toNat / 4096 = 0xF ∧
      w.toNat % 256 ∉ [0x07, 0x0A, 0x15, 0x18, 0x1E, 0x29, 0x33, 0x55, 0x65])

/-- Words written out from the patterns of R73, one or two of each family, decode to the instructions
they stand for. -/
def Obligations.SampleWordsDecode : Prop :=
  decodeWord 0b0000000011100000#16 = .ok .cls ∧
  decodeWord 0b0000000011101110#16 = .ok .ret ∧
  decodeWord 0b0001101010111100#16 = .ok (.jp 0xABC) ∧
  decodeWord 0b0011101001000010#16 = .ok (.seByte 0xA 0x42) ∧
  decodeWord 0b1000000100100101#16 = .ok (.subReg 1 2) ∧
  decodeWord 0b1100001100001111#16 = .ok (.rnd 3 0x0F) ∧
  decodeWord 0b1101000000010001#16 = .ok (.drw 0 1 1) ∧
  decodeWord 0b1110001010011110#16 = .ok (.skp 2) ∧
  decodeWord 0b1111001001100101#16 = .ok (.ldVxMem 2) ∧
  decodeWord 0b0101010101010101#16 = .error (.unimplementedOpcode 0x5555)

/-! ## The cycle -/

/-- R91: when the bytes at `PC` decode to an instruction, a step that answers a `Cycle` in Running is
that instruction's meaning at that state (with the event taken from the list of events to come, the
model's own field, log entry 2). Nothing else happens around it: no timer counts. -/
def Obligations.StepRunsTheDecodedInstruction : Prop :=
  ∀ (s : State) (i : Instr) (rest : List Byte),
    s.nextEvent = .cycle → s.runState = .running → s.pc.toNat + 2 ≤ 4096 →
    decode [s.readByte s.pc.toNat, s.readByte (s.pc.toNat + 1)] = .ok (i, rest) →
    step s = exec i s.dropEvent

/-- R93: the fetch reads two bytes at `PC`, high byte first, and fails exactly when `PC + 2 > 4096`; the
cycle then halts with `AddressOutOfRange(PC)` and nothing else changes but the event taken from the list
of events to come (the model's own field, log entry 2). That such a `PC` fails and does not wrap is the
spec's own decision D5 with D6 (log entry 19); that there is no other check, so that an odd `PC` is
fetched like any other, its D31; that the datum recorded is `PC`, its D18. -/
def Obligations.FetchIsBigEndianAndRangeChecked : Prop :=
  ∀ s : State,
    (s.pc.toNat + 2 ≤ 4096 → ∃ op : Word, s.fetch = .ok op ∧
      op.toNat = (s.readByte s.pc.toNat).toNat * 256 + (s.readByte (s.pc.toNat + 1)).toNat) ∧
    (4096 < s.pc.toNat + 2 → s.fetch = .error ⟨.addressOutOfRange, s.pc⟩) ∧
    (4096 < s.pc.toNat + 2 → s.nextEvent = .cycle → s.runState = .running →
      step s = .next (s.dropEvent.faulted .addressOutOfRange s.pc))

/-- R75, R208: fetching an unimplemented word halts the core with the word in `fault_info` and nothing
else changed but the event taken from the list of events to come (the model's own field, log entry 2).
That the core itself halts is the spec's own decision D19. -/
def Obligations.UnimplementedWordHalts : Prop :=
  ∀ (s : State) (op : Word), s.nextEvent = .cycle → s.runState = .running →
    s.fetch = .ok op → (∀ r ∈ opcodeTable, r.selectedBy op = false) →
    step s = .next (s.dropEvent.faulted .unimplementedOpcode op)

/-- R92: a `Cycle` in WaitingForKey or Halted changes nothing of the machine; the event is taken from
the list of events to come (the model's own field, log entry 2). That a `Cycle` during a key wait is
answered at once and does nothing is the spec's choice between two readings, C9 and D15 (log entry 17).
-/
def Obligations.CycleOutsideRunningChangesNothing : Prop :=
  ∀ s : State, s.nextEvent = .cycle → (s.runState = .waitingForKey ∨ s.runState = .halted) →
    step s = .next s.dropEvent

/-- R97, R204: an instruction either completes with the fault registers untouched and the core not
halted, or faults, and then the only state that changes is `run_state`, `fault_code` and
`fault_info`. -/
def Obligations.FaultDiscardsTheWholeInstruction : Prop :=
  ∀ (i : Instr) (s t : State), s.runState = .running → exec i s = .next t →
    (t.runState ≠ .halted ∧ t.faultCode = s.faultCode ∧ t.faultInfo = s.faultInfo) ∨
    ∃ code info, code ≠ .none ∧ t = s.faulted code info

/-- R202: no instruction and no event records `InvalidRegisterIndex` (that the taxonomy keeps it is the
spec's own decision D32). -/
def Obligations.InvalidRegisterIndexIsNeverRecorded : Prop :=
  (∀ op : Word, registerIndex (op.toNat / 256 % 16) = .ok (xField op) ∧
    registerIndex (op.toNat / 16 % 16) = .ok (yField op)) ∧
  ∀ s t : State, s.faultCode ≠ .invalidRegisterIndex → step s = .next t →
    t.faultCode ≠ .invalidRegisterIndex

/-- Every step of the machine, and every instruction in every state, answers a next state: failures are
the spec's fault entry, not a stop of the model (the model's choice, log entry 8). -/
def Obligations.EveryStepAnswersANextState : Prop :=
  (∀ s : State, ∃ t, step s = .next t) ∧ ∀ (i : Instr) (s : State), ∃ t, exec i s = .next t

/-- R96, R100: an instruction that leaves the whole state of a running core as it was is a jump to its
own address, and such a jump does; that the target of `Bnnn` is not reduced is the spec's own decision
D5 (log entry 19). -/
def Obligations.OnlyAJumpToItselfStandsStill : Prop :=
  ∀ (i : Instr) (s : State), s.runState = .running →
    (exec i s = .next s ↔
      (∃ nnn : Addr12, i = .jp nnn ∧ nnn.toNat = s.pc.toNat) ∨
      (∃ nnn : Addr12, i = .jpV0 nnn ∧ (s.reg 0).toNat + nnn.toNat = s.pc.toNat))

/-! ## Host events -/

/-- R213 (decision D21): in Halted no event but `Reset` changes anything but `KEYS`, and `KEYS` only as
the key events say. -/
def Obligations.HaltedIsLeftOnlyByReset : Prop :=
  ∀ (s : State) (e : HostEvent), s.runState = .halted → e ≠ .reset →
    ∃ t, s.deliver e = .next t ∧ t = { s with keys := t.keys } ∧
      ∀ q : Key, t.keyIsDown q = true ↔
        e = .keyDown q ∨ (s.keyIsDown q = true ∧ e ≠ .keyUp q)

/-- R90 (decisions D15, D19, D20, D21, D24): every transition of `run_state`, event by event. A `Cycle`
in Running ends Halted exactly when the fetch does not fit the memory (decisions D5, D6, log entry 19),
the word is no instruction, or the instruction faults; it ends in WaitingForKey exactly when the
instruction is `Fx0A` (log entry 17). -/
def Obligations.RunStateTransitions : Prop :=
  ∀ (s t : State) (e : HostEvent), s.deliver e = .next t →
    (e = .reset → t.runState = .running) ∧
    (e = .tick → t.runState = s.runState) ∧
    (∀ k, e = .keyUp k → t.runState = s.runState) ∧
    (∀ k, e = .keyDown k →
      t.runState = if s.runState = .waitingForKey then .running else s.runState) ∧
    (e = .quit → t.runState = .halted) ∧
    (∀ bytes, e = .loadProgram bytes →
      t.runState = if s.runState = .running ∧ 0x200 + bytes.length > 4096 then .halted
        else s.runState) ∧
    (e = .cycle → s.runState ≠ .running → t.runState = s.runState) ∧
    (e = .cycle → s.runState = .running →
      (t.runState = .halted ↔
        4096 < s.pc.toNat + 2 ∨
        ∃ op, s.fetch = .ok op ∧
          (decodeWord op = .error (.unimplementedOpcode op) ∨
            ∃ i code info, decodeWord op = .ok i ∧ code ≠ .none ∧
              exec i s = .next (s.faulted code info))) ∧
      (t.runState = .waitingForKey ↔
        ∃ op x, s.fetch = .ok op ∧ decodeWord op = .ok (.ldVxK x)))

/-- R212 (decision D20): `Quit` in Running or WaitingForKey halts with `fault_code` 0 and `fault_info` 0
and changes nothing else; in Halted it changes nothing (R213, D21). -/
def Obligations.QuitHaltsWithoutAFault : Prop :=
  ∀ s : State,
    (s.runState ≠ .halted → s.deliver .quit = .next (s.faulted .none 0)) ∧
    (s.runState = .halted → s.deliver .quit = .next s)

/-- R100: a run ends cleanly, Halted with `fault_code = 0`, only by `Quit` (decision D20); the event
answered is the next of the list of events to come (the model's own field, log entry 2). -/
def Obligations.ACleanEndComesOnlyByQuit : Prop :=
  ∀ s t : State, s.runState ≠ .halted → step s = .next t → t.cleanEnd → s.nextEvent = .quit

/-- R220 (decision D16): on `Tick` in Running each timer goes down by one unless it is zero, and nothing
else changes; in WaitingForKey and Halted nothing changes. -/
def Obligations.TickCountsBothTimersDown : Prop :=
  ∀ s : State,
    (s.runState = .running → ∃ t, s.deliver .tick = .next t ∧
      t.dt.toNat = s.dt.toNat - 1 ∧ t.st.toNat = s.st.toNat - 1 ∧
      t = { s with dt := t.dt, st := t.st }) ∧
    (s.runState ≠ .running → s.deliver .tick = .next s)

/-- R182: `KeyUp(k)` clears bit k of `KEYS` and does nothing else, in every state. That a release never
ends a key wait is the spec's own decision D34 (log entry 17). -/
def Obligations.KeyUpClearsOneKey : Prop :=
  ∀ (s : State) (k : Key), ∃ t, s.deliver (.keyUp k) = .next t ∧
    t = { s with keys := t.keys } ∧ t.runState = s.runState ∧
    ∀ q : Key, t.keyIsDown q = true ↔ s.keyIsDown q = true ∧ q ≠ k

/-- R181 (decision D34): `KeyDown(k)` sets bit k of `KEYS`; outside WaitingForKey it does nothing else. -/
def Obligations.KeyDownSetsOneKey : Prop :=
  ∀ (s : State) (k : Key), ∃ t, s.deliver (.keyDown k) = .next t ∧
    (∀ q : Key, t.keyIsDown q = true ↔ s.keyIsDown q = true ∨ q = k) ∧
    (s.runState ≠ .waitingForKey → t = { s with keys := t.keys })

/-- R185, second half (decision D15): `KeyDown(k)` in WaitingForKey writes the key code to
`V[wait_x]`, advances `PC` by 2 and returns to Running; with `Fx0A` before it, `V[x]` has the code. -/
def Obligations.KeyDownCompletesTheWait : Prop :=
  ∀ (s : State) (x : Reg) (k : Key),
    ∃ t u, exec (.ldVxK x) s = .next t ∧ t.deliver (.keyDown k) = .next u ∧
      (u.reg x).toNat = k.val ∧ u.pc = s.pc + 2 ∧ u.runState = .running ∧
      u.keyIsDown k = true ∧ (∀ q : Key, q ≠ k → u.keyIsDown q = s.keyIsDown q) ∧
      (∀ r, r ≠ x → u.reg r = s.reg r) ∧
      u = { s with v := u.v, pc := u.pc, runState := .running, waitX := x, keys := u.keys }

/-- R246 (decision D24, log entry 11): `LoadProgram` in Running writes the bytes at 0x200 and onward and
nothing else; a sequence that does not fit (by D6, log entry 19) halts with `AddressOutOfRange` and info
0x0200 (by D18) and writes nothing; in the other states it changes nothing. -/
def Obligations.LoadProgramWritesFrom0x200 : Prop :=
  ∀ (s : State) (bytes : List Byte), s.memWf = true →
    (s.runState = .running → 0x200 + bytes.length ≤ 4096 →
      ∃ t, s.deliver (.loadProgram bytes) = .next t ∧ t = { s with mem := t.mem } ∧
        (∀ k (h : k < bytes.length), t.readByte (0x200 + k) = bytes[k]) ∧
        (∀ a, a < 0x200 ∨ 0x200 + bytes.length ≤ a → t.readByte a = s.readByte a)) ∧
    (s.runState = .running → 4096 < 0x200 + bytes.length →
      s.deliver (.loadProgram bytes) = .next (s.faulted .addressOutOfRange 0x200)) ∧
    (s.runState ≠ .running → s.deliver (.loadProgram bytes) = .next s)

/-- R240 (decision D9, log entry 4): `Reset` in any state gives the reset values: memory zero but for
FONT, the grid clear, registers, `I`, timers, `SP` and the fault registers zero, `PC` 0x0200, Running;
`KEYS` is left to the host (log entry 6). The model's own fields, the parameters and the events to come,
stay (log entries 3, 2). -/
def Obligations.ResetEventRestoresEverything : Prop :=
  ∀ s : State, ∃ t, s.deliver .reset = .next t ∧
    (∀ a, a < 4096 → t.readByte a =
      if h : 0x050 ≤ a ∧ a < 0x0A0 then s.cfg.font[a - 0x050]'(by omega) else 0) ∧
    (∀ r c, t.pixel r c = false) ∧ (∀ r, t.reg r = 0) ∧
    t.i = 0 ∧ t.dt = 0 ∧ t.st = 0 ∧ t.sp = 0 ∧ t.pc = 0x0200 ∧
    t.runState = .running ∧ t.faultCode = .none ∧ t.faultInfo = 0 ∧
    t.keys = s.keys ∧ t.cfg = s.cfg ∧ t.events = s.events

/-- R45: the clauses that come from the document, for every FONT and STACK_DEPTH: after reset `PC` is
0x0200, memory reads zero except FONT at 0x050, the framebuffer is all zero. Two clauses are the model's
choice: the memory lists no cell (its representation, log entry 7), and `State.reset` has the default
parameters (log entries 3 and 14, decisions D8, D10). -/
def Obligations.ResetStateAsTheDocumentFixesIt : Prop :=
  State.reset = State.resetWith Config.default ∧
  ∀ c : Config,
    (State.resetWith c).pc = 0x0200 ∧ (State.resetWith c).mem = [] ∧
    (∀ a, a < 4096 → (State.resetWith c).readByte a =
      if h : 0x050 ≤ a ∧ a < 0x0A0 then c.font[a - 0x050]'(by omega) else 0) ∧
    ∀ r p, (State.resetWith c).pixel r p = false

/-- R214 (decision D17): events presented at once are serialised Reset, Quit, KeyUp, KeyDown, Cycle,
Tick, keys in ascending number; every event presented is there and no other. -/
def Obligations.SimultaneousEventsAreSerialised : Prop :=
  ∀ p : Ports, ∃ ups downs : List Key,
    p.serialise = (if p.reset then [.reset] else []) ++ (if p.quit then [.quit] else []) ++
      ups.map .keyUp ++ downs.map .keyDown ++
      (if p.cycle then [.cycle] else []) ++ (if p.tick then [.tick] else []) ∧
    ups.Pairwise (· < ·) ∧ downs.Pairwise (· < ·) ∧
    ∀ k : Key, (k ∈ ups ↔ p.keyUps.getLsbD k.val = true) ∧
      (k ∈ downs ↔ p.keyDowns.getLsbD k.val = true)

/-- R9, R170 (decision D29): the outputs show the state: element (r, c) of the snapshot is `FB[r][c]`, 32
rows of 64, and `sound_active` is true exactly when `ST` is not zero. -/
def Obligations.OutputsShowTheState : Prop :=
  ∀ s : State, s.snapshot.length = 32 ∧ (∀ row ∈ s.snapshot, row.length = 64) ∧
    (∀ (r : Fin 32) (c : Fin 64),
      (s.snapshot[r.val]?).bind (fun row => row[c.val]?) = some (s.pixel r c)) ∧
    (s.soundActive = true ↔ s.st.toNat ≠ 0)

/-! ## Jump, call, return -/

/-- R111: `1nnn` sets `PC` to `nnn`, zero-extended, whatever `nnn` is, and changes nothing else. -/
def Obligations.JumpSetsPc : Prop :=
  ∀ (nnn : Addr12) (s : State), EncodedAs (.jp nnn) 0x1000 0xF000 ∧
    ∃ t, exec (.jp nnn) s = .next t ∧ t.pc.toNat = nnn.toNat ∧ Unchanged {} s t

/-- R113 (decision D5): `Bnnn` sets `PC` to `V[0] + nnn`, unreduced. -/
def Obligations.JumpV0AddsRegisterZero : Prop :=
  ∀ (nnn : Addr12) (s : State), EncodedAs (.jpV0 nnn) 0xB000 0xF000 ∧
    ∃ t, exec (.jpV0 nnn) s = .next t ∧
      t.pc.toNat = (s.reg 0).toNat + nnn.toNat ∧ Unchanged {} s t

/-- R112: `2nnn` pushes `PC + 2` and jumps; with a full stack it raises `StackOverflow(SP)` and nothing
else changes. STACK_DEPTH is any value 12 to 16 (D8), and the datum `SP` is the spec's own decision D18.
That the cells above the pushed one, which nothing shows, keep their content is the model's choice (D28,
log entry 10). -/
def Obligations.CallPushesTheReturnAddress : Prop :=
  ∀ (nnn : Addr12) (s : State), EncodedAs (.call nnn) 0x2000 0xF000 ∧
    (s.sp.val < s.cfg.stackDepth →
      ∃ t, exec (.call nnn) s = .next t ∧ t.pc.toNat = nnn.toNat ∧
        t.sp.val = s.sp.val + 1 ∧
        (∀ k : Fin 16, t.stack[k] = if k.val = s.sp.val then s.pc + 2 else s.stack[k]) ∧
        Unchanged { stack := true } s t) ∧
    (s.sp.val = s.cfg.stackDepth →
      exec (.call nnn) s = .next (s.faulted .stackOverflow (BitVec.ofNat 16 s.sp.val)))

/-- R110: `00EE` pops the newest return address into `PC`; with an empty stack it raises
`StackUnderflow(0)` and nothing else changes (the datum 0 is the spec's own decision D18). That the
popped cell and the cells above it, which nothing shows, keep their content is the model's choice (D28,
log entry 10). -/
def Obligations.ReturnPopsTheNewestAddress : Prop :=
  ∀ s : State, EncodedAs .ret 0x00EE 0xFFFF ∧
    (0 < s.sp.val →
      ∃ t, exec .ret s = .next t ∧
        (∀ k : Fin 16, k.val = s.sp.val - 1 → t.pc = s.stack[k]) ∧
        t.sp.val = s.sp.val - 1 ∧ (∀ k : Fin 16, t.stack[k] = s.stack[k]) ∧
        Unchanged { stack := true } s t) ∧
    (s.sp.val = 0 → exec .ret s = .next (s.faulted .stackUnderflow 0))

/-- R110, R112 (the document's property S6): `00EE` after `2nnn` returns `PC` to exactly the
instruction following the original call, whatever ran between, as long as the stack and its pointer
are as the call left them. -/
def Obligations.ReturnAfterCallComesBack : Prop :=
  ∀ (nnn : Addr12) (s t u : State), s.sp.val < s.cfg.stackDepth →
    exec (.call nnn) s = .next t → u.stack = t.stack → u.sp = t.sp →
    ∃ w, exec .ret u = .next w ∧ w.pc = s.pc + 2 ∧ w.sp = s.sp

/-! ## Skips -/

/-- R120, R121: the two compare-and-skips with an immediate add 4 to `PC` when their condition holds,
else 2, and write nothing else. -/
def Obligations.ImmediateSkipsAddTwoOrFour : Prop :=
  (∀ (x : Reg) (nn : Byte) (s : State), EncodedAs (.seByte x nn) 0x3000 0xF000 ∧
    ∃ t, exec (.seByte x nn) s = .next t ∧
      t.pc = s.pc + (if s.reg x = nn then 4 else 2) ∧ Unchanged {} s t) ∧
  (∀ (x : Reg) (nn : Byte) (s : State), EncodedAs (.sneByte x nn) 0x4000 0xF000 ∧
    ∃ t, exec (.sneByte x nn) s = .next t ∧
      t.pc = s.pc + (if s.reg x ≠ nn then 4 else 2) ∧ Unchanged {} s t)

/-- R122, R123: the two compare-and-skips of registers add 4 to `PC` when their condition holds, else 2,
and write nothing else; a class 5 or class 9 word with a nonzero low nibble is not one of them
but unimplemented (that the whole pattern must match is the spec's own decision D2). -/
def Obligations.RegisterSkipsAddTwoOrFour : Prop :=
  (∀ (x y : Reg) (s : State), EncodedAs (.seReg x y) 0x5000 0xF00F ∧
    ∃ t, exec (.seReg x y) s = .next t ∧
      t.pc = s.pc + (if s.reg x = s.reg y then 4 else 2) ∧ Unchanged {} s t) ∧
  (∀ (x y : Reg) (s : State), EncodedAs (.sneReg x y) 0x9000 0xF00F ∧
    ∃ t, exec (.sneReg x y) s = .next t ∧
      t.pc = s.pc + (if s.reg x ≠ s.reg y then 4 else 2) ∧ Unchanged {} s t) ∧
  (∀ w : Word, (w.toNat / 4096 = 5 ∨ w.toNat / 4096 = 9) → w.toNat % 16 ≠ 0 →
    decodeWord w = .error (.unimplementedOpcode w))

/-- R180, R183, R184 (decision D14): the key skips; a value above 15 is never pressed. -/
def Obligations.KeySkipsTestOneKey : Prop :=
  (∀ (x : Reg) (s : State), EncodedAs (.skp x) 0xE09E 0xF0FF ∧
    ∃ t, exec (.skp x) s = .next t ∧ Unchanged {} s t ∧
      ((∃ k : Key, (s.reg x).toNat = k.val ∧ s.keyIsDown k = true) → t.pc = s.pc + 4) ∧
      (¬ (∃ k : Key, (s.reg x).toNat = k.val ∧ s.keyIsDown k = true) → t.pc = s.pc + 2)) ∧
  (∀ (x : Reg) (s : State), EncodedAs (.sknp x) 0xE0A1 0xF0FF ∧
    ∃ t, exec (.sknp x) s = .next t ∧ Unchanged {} s t ∧
      ((∃ k : Key, (s.reg x).toNat = k.val ∧ s.keyIsDown k = true) → t.pc = s.pc + 2) ∧
      (¬ (∃ k : Key, (s.reg x).toNat = k.val ∧ s.keyIsDown k = true) → t.pc = s.pc + 4))

/-! ## Registers and ALU -/

/-- R130, R132: `6xnn` loads the immediate, `8xy0` copies a register. -/
def Obligations.LoadImmediateAndCopyRegister : Prop :=
  (∀ (x : Reg) (nn : Byte) (s : State), EncodedAs (.ldByte x nn) 0x6000 0xF000 ∧
    ∃ t, exec (.ldByte x nn) s = .next t ∧ t.reg x = nn ∧ t.pc = s.pc + 2 ∧
      Unchanged { regs := [x] } s t) ∧
  (∀ (x y : Reg) (s : State), EncodedAs (.ldReg x y) 0x8000 0xF00F ∧
    ∃ t, exec (.ldReg x y) s = .next t ∧ t.reg x = s.reg y ∧ t.pc = s.pc + 2 ∧
      Unchanged { regs := [x] } s t)

/-- R131, R133, R134, R135: `7xnn` adds the immediate modulo 256; OR, AND and XOR of registers work bit by
bit; that the four write no flag is the spec's own decision D27. -/
def Obligations.AddImmediateAndLogicWriteNoFlag : Prop :=
  (∀ (x : Reg) (nn : Byte) (s : State), EncodedAs (.addByte x nn) 0x7000 0xF000 ∧
    ∃ t, exec (.addByte x nn) s = .next t ∧
      (t.reg x).toNat = ((s.reg x).toNat + nn.toNat) % 256 ∧ t.pc = s.pc + 2 ∧
      Unchanged { regs := [x] } s t) ∧
  (∀ (x y : Reg) (s : State), EncodedAs (.orReg x y) 0x8001 0xF00F ∧
    ∃ t, exec (.orReg x y) s = .next t ∧ t.pc = s.pc + 2 ∧ Unchanged { regs := [x] } s t ∧
      ∀ b : Nat, (t.reg x).getLsbD b = ((s.reg x).getLsbD b || (s.reg y).getLsbD b)) ∧
  (∀ (x y : Reg) (s : State), EncodedAs (.andReg x y) 0x8002 0xF00F ∧
    ∃ t, exec (.andReg x y) s = .next t ∧ t.pc = s.pc + 2 ∧ Unchanged { regs := [x] } s t ∧
      ∀ b : Nat, (t.reg x).getLsbD b = ((s.reg x).getLsbD b && (s.reg y).getLsbD b)) ∧
  (∀ (x y : Reg) (s : State), EncodedAs (.xorReg x y) 0x8003 0xF00F ∧
    ∃ t, exec (.xorReg x y) s = .next t ∧ t.pc = s.pc + 2 ∧ Unchanged { regs := [x] } s t ∧
      ∀ b : Nat, (t.reg x).getLsbD b = ((s.reg x).getLsbD b ^^ (s.reg y).getLsbD b))

/-- R136: `8xy4` writes the sum modulo 256 to `V[x]`, the carry to `VF`, and no other register. That the
result, not the carry, stays in `V[15]` when `x = 0xF` is the spec's own decision D3 (log
entry 12). -/
def Obligations.AddRegistersWritesSumAndCarry : Prop :=
  ∀ (x y : Reg) (s : State), EncodedAs (.addReg x y) 0x8004 0xF00F ∧
    ∃ t, exec (.addReg x y) s = .next t ∧
      (t.reg x).toNat = ((s.reg x).toNat + (s.reg y).toNat) % 256 ∧
      (x ≠ 15 → t.reg 15 = if (s.reg x).toNat + (s.reg y).toNat > 255 then 1 else 0) ∧
      t.pc = s.pc + 2 ∧ Unchanged { regs := [x, 15] } s t

/-- R137, R139: `8xy5` and `8xy7`; the flag is 1 when there is no borrow, equality included. With
`x = 0xF` the result stays and with `y = 0xF` the old `VF` is the operand, by the spec's own
decision D3 (log entry 12). -/
def Obligations.SubtractsWriteDifferenceAndNoBorrow : Prop :=
  (∀ (x y : Reg) (s : State), EncodedAs (.subReg x y) 0x8005 0xF00F ∧
    ∃ t, exec (.subReg x y) s = .next t ∧
      (t.reg x).toNat = ((s.reg x).toNat + 256 - (s.reg y).toNat) % 256 ∧
      (x ≠ 15 → t.reg 15 = if (s.reg x).toNat ≥ (s.reg y).toNat then 1 else 0) ∧
      t.pc = s.pc + 2 ∧ Unchanged { regs := [x, 15] } s t) ∧
  (∀ (x y : Reg) (s : State), EncodedAs (.subnReg x y) 0x8007 0xF00F ∧
    ∃ t, exec (.subnReg x y) s = .next t ∧
      (t.reg x).toNat = ((s.reg y).toNat + 256 - (s.reg x).toNat) % 256 ∧
      (x ≠ 15 → t.reg 15 = if (s.reg y).toNat ≥ (s.reg x).toNat then 1 else 0) ∧
      t.pc = s.pc + 2 ∧ Unchanged { regs := [x, 15] } s t)

/-- R138, R140: the shifts take `V[y]` and write `V[x]`, and the flag is the bit shifted out. The cases
`x = 0xF` and `y = 0xF` follow the spec's own decision D3 (log entry 12). -/
def Obligations.ShiftsTakeVyAndReportTheBitShiftedOut : Prop :=
  (∀ (x y : Reg) (s : State), EncodedAs (.shrReg x y) 0x8006 0xF00F ∧
    ∃ t, exec (.shrReg x y) s = .next t ∧
      (t.reg x).toNat = (s.reg y).toNat / 2 ∧
      (x ≠ 15 → (t.reg 15).toNat = (s.reg y).toNat % 2) ∧
      t.pc = s.pc + 2 ∧ Unchanged { regs := [x, 15] } s t) ∧
  (∀ (x y : Reg) (s : State), EncodedAs (.shlReg x y) 0x800E 0xF00F ∧
    ∃ t, exec (.shlReg x y) s = .next t ∧
      (t.reg x).toNat = (s.reg y).toNat * 2 % 256 ∧
      (x ≠ 15 → (t.reg 15).toNat = (s.reg y).toNat / 128) ∧
      t.pc = s.pc + 2 ∧ Unchanged { regs := [x, 15] } s t)

/-- R145 (decision D22): `Cxnn` writes a free byte masked by `nn`: bit by bit, a 0 in `nn` gives 0 and a 1
gives the draw's bit. The draw is the free value of this execution and the next execution has the
next one (log entry 1); nothing is claimed of its value. -/
def Obligations.RandomIsAMaskedFreshDraw : Prop :=
  ∀ (x : Reg) (nn : Byte) (s : State), EncodedAs (.rnd x nn) 0xC000 0xF000 ∧
    ∃ t, exec (.rnd x nn) s = .next t ∧ t.pc = s.pc + 2 ∧ t.draws = s.draws + 1 ∧
      Unchanged { regs := [x], draws := true } s t ∧
      ∀ b : Nat, (t.reg x).getLsbD b =
        (nn.getLsbD b && (Config.freeRand s.draws).getLsbD b)

/-! ## Index register and memory -/

/-- R150: `Annn` sets `I` to `nnn`, zero-extended, adds 2 to `PC`, and changes nothing else. -/
def Obligations.LoadIndexIsZeroExtended : Prop :=
  ∀ (nnn : Addr12) (s : State), EncodedAs (.ldI nnn) 0xA000 0xF000 ∧
    ∃ t, exec (.ldI nnn) s = .next t ∧ t.i.toNat = nnn.toNat ∧ t.pc = s.pc + 2 ∧
      Unchanged { index := true } s t

/-- R151, R152 (decisions D4, D13): `Fx1E` adds modulo 65536 with no flag; `Fx29` is 0x50 + 5 V[x] from
all 8 bits of the register. -/
def Obligations.IndexAddAndGlyphAddress : Prop :=
  (∀ (x : Reg) (s : State), EncodedAs (.addIVx x) 0xF01E 0xF0FF ∧
    ∃ t, exec (.addIVx x) s = .next t ∧
      t.i.toNat = (s.i.toNat + (s.reg x).toNat) % 65536 ∧ t.pc = s.pc + 2 ∧
      Unchanged { index := true } s t) ∧
  (∀ (x : Reg) (s : State), EncodedAs (.ldFVx x) 0xF029 0xF0FF ∧
    ∃ t, exec (.ldFVx x) s = .next t ∧
      t.i.toNat = 0x50 + (s.reg x).toNat * 5 ∧ t.pc = s.pc + 2 ∧
      Unchanged { index := true } s t)

/-- R153: `Fx33` stores hundreds, tens and units at `I`, `I + 1`, `I + 2` and no other byte; when `I + 3
> 4096` it raises `AddressOutOfRange(I)` and no byte is written. That such an access faults and does not
wrap is the spec's own decision D4 with D6 (log entry 19), that `I` stays its D27, the datum `I` its
D18. -/
def Obligations.DecimalDigitsAreStoredAtI : Prop :=
  ∀ (x : Reg) (s : State), s.memWf = true → EncodedAs (.ldBVx x) 0xF033 0xF0FF ∧
    (s.i.toNat + 3 ≤ 4096 →
      ∃ t, exec (.ldBVx x) s = .next t ∧
        (t.readByte s.i.toNat).toNat = (s.reg x).toNat / 100 ∧
        (t.readByte (s.i.toNat + 1)).toNat = (s.reg x).toNat / 10 % 10 ∧
        (t.readByte (s.i.toNat + 2)).toNat = (s.reg x).toNat % 10 ∧
        t.pc = s.pc + 2 ∧ Unchanged { memFrom := s.i.toNat, memLen := 3 } s t) ∧
    (4096 < s.i.toNat + 3 → exec (.ldBVx x) s = .next (s.faulted .addressOutOfRange s.i))

/-- R154: `Fx55` stores `V[0]` to `V[x]` inclusive at `I` to `I + x` and no other byte, `I` unchanged;
when `I + x + 1 > 4096` it raises `AddressOutOfRange(I)` and no byte is written. That such an access
faults and does not wrap is the spec's own decision D4 with D6 (log entry 19), that `I` stays its D27,
the datum `I` its D18. -/
def Obligations.RegistersAreStoredInclusively : Prop :=
  ∀ (x : Reg) (s : State), s.memWf = true → EncodedAs (.ldMemVx x) 0xF055 0xF0FF ∧
    (s.i.toNat + x.val + 1 ≤ 4096 →
      ∃ t, exec (.ldMemVx x) s = .next t ∧
        (∀ r : Reg, r ≤ x → t.readByte (s.i.toNat + r.val) = s.reg r) ∧
        t.pc = s.pc + 2 ∧ Unchanged { memFrom := s.i.toNat, memLen := x.val + 1 } s t) ∧
    (4096 < s.i.toNat + x.val + 1 →
      exec (.ldMemVx x) s = .next (s.faulted .addressOutOfRange s.i))

/-- R155: `Fx65` loads `V[0]` to `V[x]` inclusive from `I` to `I + x`; registers above `x`, `I` and
memory are unchanged; when `I + x + 1 > 4096` it raises `AddressOutOfRange(I)` and no register is
written. That such an access faults and does not wrap is the spec's own decision D4 with D6 (log entry
19), that `I` stays its D27, the datum `I` its D18. -/
def Obligations.RegistersAreLoadedInclusively : Prop :=
  ∀ (x : Reg) (s : State), EncodedAs (.ldVxMem x) 0xF065 0xF0FF ∧
    (s.i.toNat + x.val + 1 ≤ 4096 →
      ∃ t, exec (.ldVxMem x) s = .next t ∧
        (∀ r : Reg, r ≤ x → t.reg r = s.readByte (s.i.toNat + r.val)) ∧
        (∀ r : Reg, x < r → t.reg r = s.reg r) ∧
        t.pc = s.pc + 2 ∧ Unchanged { regs := List.finRange 16 } s t) ∧
    (4096 < s.i.toNat + x.val + 1 →
      exec (.ldVxMem x) s = .next (s.faulted .addressOutOfRange s.i))

/-- The document's property S7 (R154, R155): `Fx55` then `Fx65` with the same `x` and `I` restores
`V[0..x]`, whatever the registers hold in between. -/
def Obligations.StoreThenLoadRestoresRegisters : Prop :=
  ∀ (x : Reg) (s t u : State), s.memWf = true → s.i.toNat + x.val + 1 ≤ 4096 →
    exec (.ldMemVx x) s = .next t → u.mem = t.mem → u.cfg = t.cfg → u.i = s.i →
    ∃ w, exec (.ldVxMem x) u = .next w ∧
      (∀ r : Reg, r ≤ x → w.reg r = s.reg r) ∧ ∀ r : Reg, x < r → w.reg r = u.reg r

/-- R64: a store is seen by the very next fetch. After `Fx55` or `Fx33`, stored wherever `I` says, the
word fetched at the new `PC` has as each of its two bytes, high byte first, the byte stored there when
the store covers its address, and the byte that was there before when it does not: a store over both
bytes of the word, over either of them, or over none. -/
def Obligations.StoredBytesAreFetchedNext : Prop :=
  ∀ (x : Reg) (s : State), s.memWf = true → s.pc.toNat + 4 ≤ 4096 →
    (s.i.toNat + x.val + 1 ≤ 4096 →
      ∃ t, exec (.ldMemVx x) s = .next t ∧ ∃ op : Word, t.fetch = .ok op ∧
        op.toNat = s.byteAfterStore (x.val + 1) s.regValue (s.pc.toNat + 2) * 256 +
          s.byteAfterStore (x.val + 1) s.regValue (s.pc.toNat + 3)) ∧
    (s.i.toNat + 3 ≤ 4096 →
      ∃ t, exec (.ldBVx x) s = .next t ∧ ∃ op : Word, t.fetch = .ok op ∧
        op.toNat = s.byteAfterStore 3 (digitValue (s.reg x)) (s.pc.toNat + 2) * 256 +
          s.byteAfterStore 3 (digitValue (s.reg x)) (s.pc.toNat + 3))

/-! ## Display -/

/-- R171: `00E0`; the snapshot is the all-zero grid. -/
def Obligations.ClearZeroesTheWholeGrid : Prop :=
  EncodedAs .cls 0x00E0 0xFFFF ∧
  ∀ s : State, ∃ t, exec .cls s = .next t ∧ (∀ r c, t.pixel r c = false) ∧
    t.snapshot = List.replicate 32 (List.replicate 64 false) ∧ t.pc = s.pc + 2 ∧
    Unchanged { screen := true } s t

/-- R172 to R175 (decisions D7, D11, D12): `Dxyn` flips exactly the pixels the sprite covers, each
wrapped on its own; `VF` is 1 when some covered pixel was on, else 0, always written; with `n = 0` no
memory is read (log entry 15); when `n >= 1` and `I + n > 4096` it raises `AddressOutOfRange(I)` and
nothing is drawn. That such an access faults and does not wrap is the spec's own decision D4 with D6
(log entry 19), that `I` stays its D27, the datum `I` its D18. Bit 7 as the leftmost column is from
general knowledge (log entry 13). -/
def Obligations.DrawFlipsTheCoveredPixels : Prop :=
  ∀ (x y : Reg) (n : Rows) (s : State), EncodedAs (.drw x y n) 0xD000 0xF000 ∧
    (n.val = 0 ∨ s.i.toNat + n.val ≤ 4096 →
      ∃ t, exec (.drw x y n) s = .next t ∧
        (∀ r c, t.pixel r c ≠ s.pixel r c ↔ Covered s x y n r c) ∧
        ((∃ r c, Covered s x y n r c ∧ s.pixel r c = true) → t.reg 15 = 1) ∧
        (¬ (∃ r c, Covered s x y n r c ∧ s.pixel r c = true) → t.reg 15 = 0) ∧
        t.pc = s.pc + 2 ∧ Unchanged { regs := [15], screen := true } s t) ∧
    (n.val ≠ 0 → 4096 < s.i.toNat + n.val →
      exec (.drw x y n) s = .next (s.faulted .addressOutOfRange s.i))

/-- The document's property S5 (R172, R173): drawing the same sprite twice at the same place restores
the framebuffer, and the second draw reports a collision exactly when the first turned a pixel on (the
proviso is the spec's own reading of S5). With `x = 0xF` or `y = 0xF` the flag moves the place of the
second draw, so these forms are no case of it. That the collision is the value 1 is the spec's own
decision D12, that the second draw has the same sprite because `I` stays its D27. Which pixels are
covered rests on the bit order of a sprite byte (PRESUMED, D11, log entry 13), and a draw of no rows
with `I` outside the memory on D7 (log entry 15). -/
def Obligations.DrawingTwiceRestoresTheScreen : Prop :=
  ∀ (x y : Reg) (n : Rows) (s t u : State), x ≠ 15 → y ≠ 15 →
    (n.val = 0 ∨ s.i.toNat + n.val ≤ 4096) →
    exec (.drw x y n) s = .next t → exec (.drw x y n) t = .next u →
    (∀ r c, u.pixel r c = s.pixel r c) ∧
    (u.reg 15 = 1 ↔ ∃ r c, Covered s x y n r c ∧ s.pixel r c = false)

/-- R174: no two sprite bits of one draw land on the same pixel: the number of pixels changed by one
`Dxyn` is the number of 1 bits in its `n` sprite bytes. That a draw of no rows reads nothing wherever
`I` points is the spec's own decision D7 (log entry 15). -/
def Obligations.PixelsChangedAreTheSpriteBits : Prop :=
  ∀ (x y : Reg) (n : Rows) (s t : State), (n.val = 0 ∨ s.i.toNat + n.val ≤ 4096) →
    exec (.drw x y n) s = .next t →
    ((Finset.univ : Finset (Fin 32 × Fin 64)).filter
      fun p => t.pixel p.1 p.2 ≠ s.pixel p.1 p.2).card =
    ((Finset.univ : Finset (Fin n.val × Fin 8)).filter
      fun q => (s.readByte (s.i.toNat + q.1.val)).getLsbD q.2.val = true).card

/-! ## Keypad and timers -/

/-- R185, first half (decision D15): `Fx0A` latches `x` and enters WaitingForKey; `PC`, the registers
and everything else are unchanged. -/
def Obligations.WaitKeySuspends : Prop :=
  ∀ (x : Reg) (s : State), EncodedAs (.ldVxK x) 0xF00A 0xF0FF ∧
    ∃ t, exec (.ldVxK x) s = .next t ∧ t.runState = .waitingForKey ∧ t.waitX = x ∧
      t.pc = s.pc ∧ Unchanged { wait := true } s t

/-- R186, R187: `Fx07` reads the delay timer, `Fx15` sets it. -/
def Obligations.DelayTimerIsReadAndSet : Prop :=
  (∀ (x : Reg) (s : State), EncodedAs (.ldVxDT x) 0xF007 0xF0FF ∧
    ∃ t, exec (.ldVxDT x) s = .next t ∧ t.reg x = s.dt ∧ t.pc = s.pc + 2 ∧
      Unchanged { regs := [x] } s t) ∧
  (∀ (x : Reg) (s : State), EncodedAs (.ldDTVx x) 0xF015 0xF0FF ∧
    ∃ t, exec (.ldDTVx x) s = .next t ∧ t.dt = s.reg x ∧ t.pc = s.pc + 2 ∧
      Unchanged { delayTimer := true } s t)

/-- R188, R35: `Fx18` sets the sound timer, and `sound_active`, a level by the spec's own decision D29,
follows at once; no instruction reads the sound timer: with another `ST` every instruction does the
same to everything but `ST`, and leaves `ST` as it was unless it is `Fx18`. -/
def Obligations.SoundTimerIsSetByFx18AndReadByNone : Prop :=
  (∀ (x : Reg) (s : State), EncodedAs (.ldSTVx x) 0xF018 0xF0FF ∧
    ∃ t, exec (.ldSTVx x) s = .next t ∧ t.st = s.reg x ∧ t.pc = s.pc + 2 ∧
      (t.soundActive = true ↔ s.reg x ≠ 0) ∧ Unchanged { soundTimer := true } s t) ∧
  ∀ (i : Instr) (s t : State) (b : Byte), exec i s = .next t →
    ∃ t', exec i { s with st := b } = .next t' ∧ { t' with st := t.st } = t ∧
      ((∀ x, i ≠ .ldSTVx x) → t'.st = b)

/-! ## Whole-machine rules -/

/-- R59, R60: only `Fx33` and `Fx55` change memory, and only at `I` to `I + 15`; that such an address is
not wrapped is the spec's own decision D4 (log entry 19). -/
def Obligations.OnlyStoresChangeMemory : Prop :=
  ∀ (i : Instr) (s t : State) (a : Nat), s.memWf = true → exec i s = .next t →
    t.readByte a ≠ s.readByte a →
    (∃ x, i = .ldBVx x ∨ i = .ldMemVx x) ∧ s.i.toNat ≤ a ∧ a ≤ s.i.toNat + 15

/-- Which instruction can change which part of the state, for every part but `PC`: the registers `V[0]`
to `V[14]` (R20), `VF` (R22), `I` (R23, R156), the call stack (R30), the timers (R34, R35), memory
(R36), the framebuffer (R37), `KEYS` (R38), `run_state` (R90), `wait_x` (R40), the fault registers (R41,
R42, R204), and the model's own fields (log entries 1, 2, 3). That `VF` and `I` have no other writer
rests on the spec's own decision D27, the way `Fx0A` waits on its D15. -/
def Obligations.EveryPartHasItsWriters : Prop :=
  ∀ (i : Instr) (s t : State), exec i s = .next t →
    (∀ r : Reg, r ≠ 15 → t.reg r ≠ s.reg r →
      i.dest = some r ∨ ∃ x, i = .ldVxMem x ∧ r ≤ x) ∧
    (t.reg 15 ≠ s.reg 15 → i.writesFlag ∨ i.dest = some 15) ∧
    (t.i ≠ s.i → ∃ x nnn, i = .ldI nnn ∨ i = .addIVx x ∨ i = .ldFVx x) ∧
    (t.sp ≠ s.sp ∨ t.stack ≠ s.stack → i = .ret ∨ ∃ nnn, i = .call nnn) ∧
    (t.dt ≠ s.dt → ∃ x, i = .ldDTVx x) ∧
    (t.st ≠ s.st → ∃ x, i = .ldSTVx x) ∧
    (t.mem ≠ s.mem → ∃ x, i = .ldBVx x ∨ i = .ldMemVx x) ∧
    ((∃ r c, t.pixel r c ≠ s.pixel r c) → i = .cls ∨ ∃ x y n, i = .drw x y n) ∧
    (t.runState ≠ s.runState → (∃ x, i = .ldVxK x) ∨
      ∃ code info, code ≠ .none ∧ t = s.faulted code info) ∧
    (t.waitX ≠ s.waitX → ∃ x, i = .ldVxK x ∧ t.waitX = x) ∧
    (t.faultCode ≠ s.faultCode ∨ t.faultInfo ≠ s.faultInfo →
      ∃ code info, code ≠ .none ∧ t = s.faulted code info) ∧
    (t.draws ≠ s.draws → ∃ x nn, i = .rnd x nn) ∧
    t.keys = s.keys ∧ t.cfg = s.cfg ∧ t.events = s.events

/-- R22 (decision D12): after a flag-writing instruction that completes and whose destination is not
`V[15]`, `VF` is 0x00 or 0x01. -/
def Obligations.FlagsAreZeroOrOne : Prop :=
  ∀ (i : Instr) (s t : State), i.writesFlag → i.dest ≠ some 15 → s.runState = .running →
    exec i s = .next t → t.runState ≠ .halted → t.reg 15 = 0 ∨ t.reg 15 = 1

/-- R38: `KEYS` is read only by `Ex9E` and `ExA1`: with another keypad state, every other instruction
does the same to everything but `KEYS`, which it leaves as it was. That for `Fx0A` a key already held
plays no part is the spec's own decision D15 (log entry 17). -/
def Obligations.OnlyKeySkipsReadTheKeypad : Prop :=
  ∀ (i : Instr) (s t : State) (ks : BitVec 16), (∀ x, i ≠ .skp x ∧ i ≠ .sknp x) →
    exec i s = .next t → exec i { s with keys := ks } = .next { t with keys := ks }

/-- The invariant of every reachable state: canonical memory (log entry 7), `SP` within STACK_DEPTH
(R30, log entry 9), `PC` at most 0x10FE (R26, by decision D5, log entry 19), return addresses at most
0x1000 (R112), a fault only in Halted (R41) and no datum without a fault (R201, D18), and during a key
wait an `Fx0A` with the latched register at `PC` (R40, by decision D15, log entry 17). Every step keeps
it, whatever the event. -/
def Obligations.EveryStepKeepsTheInvariant : Prop :=
  ∀ s t : State, s.Inv → step s = .next t → t.Inv

/-- The invariant holds after reset, for every STACK_DEPTH and FONT; it rests on the reset values of log
entries 3, 4 and 7 (decision D9). -/
def Obligations.TheInvariantHoldsAtReset : Prop :=
  State.reset.Inv ∧ ∀ c : Config, (State.resetWith c).Inv
end

