-- ==== Sys2Proof/Laws/Encoding.lean ====
section
/-! SUPPORT. The operand fields of a word built by each encoding format (spec/30_encoding.md R71,
R72): the small lemmas of `encodeNNN`, `encodeXNN` and `encodeXY`, and of the byte order. -/

namespace Sys2Proof

variable (c : Nibble) (x y : Reg) (a : Addr12) (b : Byte) (n : Nibble)

@[simp] theorem classField_NNN : classField (encodeNNN c a) = c := by
  apply BitVec.eq_of_getLsbD_eq
  intro k hk
  simp only [classField, encodeNNN, BitVec.getLsbD_extractLsb', BitVec.getLsbD_append]
  interval_cases k <;> simp

@[simp] theorem nnnField_NNN : nnnField (encodeNNN c a) = a := by
  apply BitVec.eq_of_getLsbD_eq
  intro k hk
  simp only [nnnField, encodeNNN, BitVec.getLsbD_extractLsb', BitVec.getLsbD_append]
  interval_cases k <;> simp

@[simp] theorem classField_XNN : classField (encodeXNN c x b) = c := by
  apply BitVec.eq_of_getLsbD_eq
  intro k hk
  simp only [classField, encodeXNN, BitVec.getLsbD_extractLsb', BitVec.getLsbD_append]
  interval_cases k <;> simp

@[simp] theorem xField_XNN : xField (encodeXNN c x b) = x := by
  suffices h : (encodeXNN c x b).extractLsb' 8 4 = BitVec.ofFin (w := 4) x by simp only [xField, h]
  apply BitVec.eq_of_getLsbD_eq
  intro k hk
  simp only [encodeXNN, BitVec.getLsbD_extractLsb', BitVec.getLsbD_append]
  interval_cases k <;> simp

@[simp] theorem nnField_XNN : nnField (encodeXNN c x b) = b := by
  apply BitVec.eq_of_getLsbD_eq
  intro k hk
  simp only [nnField, encodeXNN, BitVec.getLsbD_extractLsb', BitVec.getLsbD_append]
  interval_cases k <;> simp

@[simp] theorem classField_XY : classField (encodeXY c x y n) = c := by
  apply BitVec.eq_of_getLsbD_eq
  intro k hk
  simp only [classField, encodeXY, BitVec.getLsbD_extractLsb', BitVec.getLsbD_append]
  interval_cases k <;> simp

@[simp] theorem xField_XY : xField (encodeXY c x y n) = x := by
  suffices h : (encodeXY c x y n).extractLsb' 8 4 = BitVec.ofFin (w := 4) x by simp only [xField, h]
  apply BitVec.eq_of_getLsbD_eq
  intro k hk
  simp only [encodeXY, BitVec.getLsbD_extractLsb', BitVec.getLsbD_append]
  interval_cases k <;> simp

@[simp] theorem yField_XY : yField (encodeXY c x y n) = y := by
  suffices h : (encodeXY c x y n).extractLsb' 4 4 = BitVec.ofFin (w := 4) y by simp only [yField, h]
  apply BitVec.eq_of_getLsbD_eq
  intro k hk
  simp only [encodeXY, BitVec.getLsbD_extractLsb', BitVec.getLsbD_append]
  interval_cases k <;> simp

@[simp] theorem nField_XY : nField (encodeXY c x y n) = n.toFin := by
  suffices h : (encodeXY c x y n).extractLsb' 0 4 = n by simp only [nField, h]
  apply BitVec.eq_of_getLsbD_eq
  intro k hk
  simp only [encodeXY, BitVec.getLsbD_extractLsb', BitVec.getLsbD_append]
  interval_cases k <;> simp

/-- The fetched word of two bytes is `b[0] * 256 + b[1]` (R91). -/
theorem toNat_beWord_pair (hi lo : Byte) : (beWord [hi, lo]).toNat = hi.toNat * 256 + lo.toNat := by
  simp only [beWord, List.foldl_cons, List.foldl_nil, BitVec.toNat_ofNat]
  omega

/-- Splitting a word into its bytes and joining them gives the word (R57). -/
theorem beWord_beBytes (w : Word) : beWord (beBytes w) = w := by
  apply BitVec.eq_of_toNat_eq
  simp only [beBytes, toNat_beWord_pair, BitVec.extractLsb'_toNat, Nat.shiftRight_eq_div_pow]
  omega

end Sys2Proof
end

