-- ==== Sys2Proof/Laws/Memory.lean ====
section
/-! SUPPORT. The laws of memory: read after write, and that every memory operation keeps the
canonical form. -/

namespace Sys2Proof.Machine

variable {bg : Nat → Byte}

/-- In canonical form, an address below every listed one reads as an unlisted address does. -/
theorem Memory.read_below {lo a : Nat} {m : Memory} (h : Memory.wfFrom bg lo m = true) (ha : a < lo) :
    Memory.read bg m a = bg a := by
  induction m generalizing lo with
  | nil => rfl
  | cons c rest ih =>
    obtain ⟨b, w⟩ := c
    simp only [Memory.wfFrom, Bool.and_eq_true, decide_eq_true_eq] at h
    obtain ⟨⟨⟨hlo, -⟩, -⟩, hrest⟩ := h
    simp only [Memory.read]
    rw [if_neg (by omega), ih hrest (by omega)]

/-- The canonical form from a bound is the canonical form from any lower one. -/
theorem Memory.wfFrom_mono {lo lo' : Nat} {m : Memory} (h : Memory.wfFrom bg lo m = true)
    (hle : lo' ≤ lo) : Memory.wfFrom bg lo' m = true := by
  cases m with
  | nil => rfl
  | cons c rest =>
    obtain ⟨b, w⟩ := c
    simp only [Memory.wfFrom, Bool.and_eq_true, decide_eq_true_eq] at h ⊢
    exact ⟨⟨⟨by omega, h.1.1.2⟩, h.1.2⟩, h.2⟩

/-- Read after write: the byte written at its address, the old byte at every other. -/
theorem Memory.read_write {lo : Nat} {m : Memory} (h : Memory.wfFrom bg lo m = true) (a a' : Nat)
    (x : Byte) :
    Memory.read bg (Memory.write bg m a x) a' = if a' = a then x else Memory.read bg m a' := by
  induction m generalizing lo with
  | nil =>
    by_cases hx : x = bg a <;> by_cases ha : a' = a <;> simp [Memory.write, Memory.read, hx, ha]
  | cons c rest ih =>
    obtain ⟨b, w⟩ := c
    simp only [Memory.wfFrom, Bool.and_eq_true, decide_eq_true_eq] at h
    obtain ⟨⟨⟨hlo, -⟩, -⟩, hrest⟩ := h
    simp only [Memory.write]
    split
    · have hb : Memory.read bg rest a = bg a := Memory.read_below hrest (by omega)
      split <;> by_cases ha : a' = a <;> simp_all [Memory.read]
      omega
    · split
      · subst a
        have hb : Memory.read bg rest b = bg b := Memory.read_below hrest (by omega)
        split <;> by_cases ha : a' = b <;> simp_all [Memory.read]
      · simp only [Memory.read]
        by_cases hab : a' = b
        · subst hab
          rw [if_pos rfl, if_neg (by omega), if_pos rfl]
        · rw [if_neg hab, ih hrest, if_neg hab]

/-- A write keeps the canonical form. -/
theorem Memory.wfFrom_write {lo : Nat} {m : Memory} (h : Memory.wfFrom bg lo m = true) {a : Nat}
    (hlo : lo ≤ a) (ha : a < Config.memSize) (x : Byte) :
    Memory.wfFrom bg lo (Memory.write bg m a x) = true := by
  induction m generalizing lo with
  | nil => simp only [Memory.write]; split <;> simp_all [Memory.wfFrom]
  | cons c rest ih =>
    obtain ⟨b, w⟩ := c
    have hc := h
    simp only [Memory.wfFrom, Bool.and_eq_true, decide_eq_true_eq] at h
    obtain ⟨⟨⟨hb, hsz⟩, hw⟩, hrest⟩ := h
    simp only [Memory.write]
    split
    · split
      · exact hc
      · simp only [Memory.wfFrom, Bool.and_eq_true, decide_eq_true_eq, bne_iff_ne]
        refine ⟨⟨⟨hlo, ha⟩, by assumption⟩, ⟨⟨by omega, hsz⟩, by simpa using hw⟩, hrest⟩
    · split
      · split
        · exact Memory.wfFrom_mono hrest (by omega)
        · simp only [Memory.wfFrom, Bool.and_eq_true, decide_eq_true_eq, bne_iff_ne]
          refine ⟨⟨⟨hlo, ha⟩, by assumption⟩, ?_⟩
          subst a
          exact hrest
      · simp only [Memory.wfFrom, Bool.and_eq_true, decide_eq_true_eq]
        exact ⟨⟨⟨hb, hsz⟩, hw⟩, ih hrest (by omega)⟩

/-- The empty list is in canonical form: nothing written yet. -/
theorem Memory.wf_nil : Memory.wf bg [] = true := rfl

/-- A write to an existing address keeps the canonical form. -/
theorem Memory.wf_write {m : Memory} (h : Memory.wf bg m = true) {a : Nat} (ha : a < Config.memSize)
    (x : Byte) : Memory.wf bg (Memory.write bg m a x) = true :=
  Memory.wfFrom_write h (Nat.zero_le a) ha x

/-- A range write inside the memory keeps the canonical form. -/
theorem Memory.wf_writeRange {m : Memory} (h : Memory.wf bg m = true) (a : Nat) (xs : List Byte)
    (ha : a + xs.length ≤ Config.memSize) : Memory.wf bg (Memory.writeRange bg m a xs) = true := by
  induction xs generalizing m a with
  | nil => exact h
  | cons x xs ih =>
    simp only [List.length_cons] at ha
    exact ih (Memory.wf_write h (by omega) x) (a + 1) (by omega)

/-- Reading after a range write: the byte given for an address of the range, the old byte at every
other address. -/
theorem Memory.read_writeRange {m : Memory} (h : Memory.wf bg m = true) (a : Nat) (xs : List Byte)
    (hfit : a + xs.length ≤ Config.memSize) (a' : Nat) :
    Memory.read bg (Memory.writeRange bg m a xs) a' =
      if a ≤ a' then (xs[a' - a]?).getD (Memory.read bg m a') else Memory.read bg m a' := by
  induction xs generalizing m a with
  | nil => simp [Memory.writeRange]
  | cons x xs ih =>
    simp only [List.length_cons] at hfit
    simp only [Memory.writeRange]
    rw [ih (Memory.wf_write h (by omega) x) (a + 1) (by omega), Memory.read_write h]
    by_cases hle : a + 1 ≤ a'
    · have : a' - a = (a' - (a + 1)) + 1 := by omega
      have hne : a' ≠ a := by omega
      have hle' : a ≤ a' := by omega
      simp [hle, hle', hne, this]
    · by_cases heq : a' = a
      · subst heq; simp
      · rw [if_neg hle, if_neg heq, if_neg (by omega)]

@[simp] theorem Memory.length_readRange (m : Memory) (a n : Nat) :
    (Memory.readRange bg m a n).length = n := by
  induction n generalizing a with
  | zero => rfl
  | succ n ih => simp [Memory.readRange, ih]

/-- The k-th byte of a range read is the byte at `a + k`. -/
theorem Memory.getElem?_readRange (m : Memory) (a n k : Nat) :
    (Memory.readRange bg m a n)[k]? = if k < n then some (Memory.read bg m (a + k)) else none := by
  induction n generalizing a k with
  | zero => simp [Memory.readRange]
  | succ n ih =>
    cases k with
    | zero => simp [Memory.readRange]
    | succ k => simp [Memory.readRange, ih, Nat.add_assoc, Nat.add_comm 1 k]

end Sys2Proof.Machine
end

