-- ==== Sys2Proof/Laws/State.lean ====
section
/-! SUPPORT. What each update of the state leaves in each field: one lemma a field and update, true
by rfl, so that no later proof unfolds a record update. -/

namespace Sys2Proof.Machine

variable (s : State)

/-! ### `State.setReg` -/

@[simp] theorem State.setReg_v (r : Reg) (b : Byte) : (s.setReg r b).v = s.v.set r.val b := rfl
@[simp] theorem State.setReg_i (r : Reg) (b : Byte) : (s.setReg r b).i = s.i := rfl
@[simp] theorem State.setReg_pc (r : Reg) (b : Byte) : (s.setReg r b).pc = s.pc := rfl
@[simp] theorem State.setReg_stack (r : Reg) (b : Byte) : (s.setReg r b).stack = s.stack := rfl
@[simp] theorem State.setReg_sp (r : Reg) (b : Byte) : (s.setReg r b).sp = s.sp := rfl
@[simp] theorem State.setReg_dt (r : Reg) (b : Byte) : (s.setReg r b).dt = s.dt := rfl
@[simp] theorem State.setReg_st (r : Reg) (b : Byte) : (s.setReg r b).st = s.st := rfl
@[simp] theorem State.setReg_mem (r : Reg) (b : Byte) : (s.setReg r b).mem = s.mem := rfl
@[simp] theorem State.setReg_fb (r : Reg) (b : Byte) : (s.setReg r b).fb = s.fb := rfl
@[simp] theorem State.setReg_keys (r : Reg) (b : Byte) : (s.setReg r b).keys = s.keys := rfl
@[simp] theorem State.setReg_runState (r : Reg) (b : Byte) : (s.setReg r b).runState = s.runState := rfl
@[simp] theorem State.setReg_waitX (r : Reg) (b : Byte) : (s.setReg r b).waitX = s.waitX := rfl
@[simp] theorem State.setReg_faultCode (r : Reg) (b : Byte) : (s.setReg r b).faultCode = s.faultCode := rfl
@[simp] theorem State.setReg_faultInfo (r : Reg) (b : Byte) : (s.setReg r b).faultInfo = s.faultInfo := rfl
@[simp] theorem State.setReg_cfg (r : Reg) (b : Byte) : (s.setReg r b).cfg = s.cfg := rfl
@[simp] theorem State.setReg_draws (r : Reg) (b : Byte) : (s.setReg r b).draws = s.draws := rfl
@[simp] theorem State.setReg_events (r : Reg) (b : Byte) : (s.setReg r b).events = s.events := rfl

/-! ### `State.setRegs` -/

@[simp] theorem State.setRegs_v (w : Vector Byte 16) : (s.setRegs w).v = w := rfl
@[simp] theorem State.setRegs_i (w : Vector Byte 16) : (s.setRegs w).i = s.i := rfl
@[simp] theorem State.setRegs_pc (w : Vector Byte 16) : (s.setRegs w).pc = s.pc := rfl
@[simp] theorem State.setRegs_stack (w : Vector Byte 16) : (s.setRegs w).stack = s.stack := rfl
@[simp] theorem State.setRegs_sp (w : Vector Byte 16) : (s.setRegs w).sp = s.sp := rfl
@[simp] theorem State.setRegs_dt (w : Vector Byte 16) : (s.setRegs w).dt = s.dt := rfl
@[simp] theorem State.setRegs_st (w : Vector Byte 16) : (s.setRegs w).st = s.st := rfl
@[simp] theorem State.setRegs_mem (w : Vector Byte 16) : (s.setRegs w).mem = s.mem := rfl
@[simp] theorem State.setRegs_fb (w : Vector Byte 16) : (s.setRegs w).fb = s.fb := rfl
@[simp] theorem State.setRegs_keys (w : Vector Byte 16) : (s.setRegs w).keys = s.keys := rfl
@[simp] theorem State.setRegs_runState (w : Vector Byte 16) : (s.setRegs w).runState = s.runState := rfl
@[simp] theorem State.setRegs_waitX (w : Vector Byte 16) : (s.setRegs w).waitX = s.waitX := rfl
@[simp] theorem State.setRegs_faultCode (w : Vector Byte 16) : (s.setRegs w).faultCode = s.faultCode := rfl
@[simp] theorem State.setRegs_faultInfo (w : Vector Byte 16) : (s.setRegs w).faultInfo = s.faultInfo := rfl
@[simp] theorem State.setRegs_cfg (w : Vector Byte 16) : (s.setRegs w).cfg = s.cfg := rfl
@[simp] theorem State.setRegs_draws (w : Vector Byte 16) : (s.setRegs w).draws = s.draws := rfl
@[simp] theorem State.setRegs_events (w : Vector Byte 16) : (s.setRegs w).events = s.events := rfl

/-! ### `State.setI` -/

@[simp] theorem State.setI_v (w : Word) : (s.setI w).v = s.v := rfl
@[simp] theorem State.setI_i (w : Word) : (s.setI w).i = w := rfl
@[simp] theorem State.setI_pc (w : Word) : (s.setI w).pc = s.pc := rfl
@[simp] theorem State.setI_stack (w : Word) : (s.setI w).stack = s.stack := rfl
@[simp] theorem State.setI_sp (w : Word) : (s.setI w).sp = s.sp := rfl
@[simp] theorem State.setI_dt (w : Word) : (s.setI w).dt = s.dt := rfl
@[simp] theorem State.setI_st (w : Word) : (s.setI w).st = s.st := rfl
@[simp] theorem State.setI_mem (w : Word) : (s.setI w).mem = s.mem := rfl
@[simp] theorem State.setI_fb (w : Word) : (s.setI w).fb = s.fb := rfl
@[simp] theorem State.setI_keys (w : Word) : (s.setI w).keys = s.keys := rfl
@[simp] theorem State.setI_runState (w : Word) : (s.setI w).runState = s.runState := rfl
@[simp] theorem State.setI_waitX (w : Word) : (s.setI w).waitX = s.waitX := rfl
@[simp] theorem State.setI_faultCode (w : Word) : (s.setI w).faultCode = s.faultCode := rfl
@[simp] theorem State.setI_faultInfo (w : Word) : (s.setI w).faultInfo = s.faultInfo := rfl
@[simp] theorem State.setI_cfg (w : Word) : (s.setI w).cfg = s.cfg := rfl
@[simp] theorem State.setI_draws (w : Word) : (s.setI w).draws = s.draws := rfl
@[simp] theorem State.setI_events (w : Word) : (s.setI w).events = s.events := rfl

/-! ### `State.setPc` -/

@[simp] theorem State.setPc_v (w : Word) : (s.setPc w).v = s.v := rfl
@[simp] theorem State.setPc_i (w : Word) : (s.setPc w).i = s.i := rfl
@[simp] theorem State.setPc_pc (w : Word) : (s.setPc w).pc = w := rfl
@[simp] theorem State.setPc_stack (w : Word) : (s.setPc w).stack = s.stack := rfl
@[simp] theorem State.setPc_sp (w : Word) : (s.setPc w).sp = s.sp := rfl
@[simp] theorem State.setPc_dt (w : Word) : (s.setPc w).dt = s.dt := rfl
@[simp] theorem State.setPc_st (w : Word) : (s.setPc w).st = s.st := rfl
@[simp] theorem State.setPc_mem (w : Word) : (s.setPc w).mem = s.mem := rfl
@[simp] theorem State.setPc_fb (w : Word) : (s.setPc w).fb = s.fb := rfl
@[simp] theorem State.setPc_keys (w : Word) : (s.setPc w).keys = s.keys := rfl
@[simp] theorem State.setPc_runState (w : Word) : (s.setPc w).runState = s.runState := rfl
@[simp] theorem State.setPc_waitX (w : Word) : (s.setPc w).waitX = s.waitX := rfl
@[simp] theorem State.setPc_faultCode (w : Word) : (s.setPc w).faultCode = s.faultCode := rfl
@[simp] theorem State.setPc_faultInfo (w : Word) : (s.setPc w).faultInfo = s.faultInfo := rfl
@[simp] theorem State.setPc_cfg (w : Word) : (s.setPc w).cfg = s.cfg := rfl
@[simp] theorem State.setPc_draws (w : Word) : (s.setPc w).draws = s.draws := rfl
@[simp] theorem State.setPc_events (w : Word) : (s.setPc w).events = s.events := rfl

/-! ### `State.setDt` -/

@[simp] theorem State.setDt_v (b : Byte) : (s.setDt b).v = s.v := rfl
@[simp] theorem State.setDt_i (b : Byte) : (s.setDt b).i = s.i := rfl
@[simp] theorem State.setDt_pc (b : Byte) : (s.setDt b).pc = s.pc := rfl
@[simp] theorem State.setDt_stack (b : Byte) : (s.setDt b).stack = s.stack := rfl
@[simp] theorem State.setDt_sp (b : Byte) : (s.setDt b).sp = s.sp := rfl
@[simp] theorem State.setDt_dt (b : Byte) : (s.setDt b).dt = b := rfl
@[simp] theorem State.setDt_st (b : Byte) : (s.setDt b).st = s.st := rfl
@[simp] theorem State.setDt_mem (b : Byte) : (s.setDt b).mem = s.mem := rfl
@[simp] theorem State.setDt_fb (b : Byte) : (s.setDt b).fb = s.fb := rfl
@[simp] theorem State.setDt_keys (b : Byte) : (s.setDt b).keys = s.keys := rfl
@[simp] theorem State.setDt_runState (b : Byte) : (s.setDt b).runState = s.runState := rfl
@[simp] theorem State.setDt_waitX (b : Byte) : (s.setDt b).waitX = s.waitX := rfl
@[simp] theorem State.setDt_faultCode (b : Byte) : (s.setDt b).faultCode = s.faultCode := rfl
@[simp] theorem State.setDt_faultInfo (b : Byte) : (s.setDt b).faultInfo = s.faultInfo := rfl
@[simp] theorem State.setDt_cfg (b : Byte) : (s.setDt b).cfg = s.cfg := rfl
@[simp] theorem State.setDt_draws (b : Byte) : (s.setDt b).draws = s.draws := rfl
@[simp] theorem State.setDt_events (b : Byte) : (s.setDt b).events = s.events := rfl

/-! ### `State.setSt` -/

@[simp] theorem State.setSt_v (b : Byte) : (s.setSt b).v = s.v := rfl
@[simp] theorem State.setSt_i (b : Byte) : (s.setSt b).i = s.i := rfl
@[simp] theorem State.setSt_pc (b : Byte) : (s.setSt b).pc = s.pc := rfl
@[simp] theorem State.setSt_stack (b : Byte) : (s.setSt b).stack = s.stack := rfl
@[simp] theorem State.setSt_sp (b : Byte) : (s.setSt b).sp = s.sp := rfl
@[simp] theorem State.setSt_dt (b : Byte) : (s.setSt b).dt = s.dt := rfl
@[simp] theorem State.setSt_st (b : Byte) : (s.setSt b).st = b := rfl
@[simp] theorem State.setSt_mem (b : Byte) : (s.setSt b).mem = s.mem := rfl
@[simp] theorem State.setSt_fb (b : Byte) : (s.setSt b).fb = s.fb := rfl
@[simp] theorem State.setSt_keys (b : Byte) : (s.setSt b).keys = s.keys := rfl
@[simp] theorem State.setSt_runState (b : Byte) : (s.setSt b).runState = s.runState := rfl
@[simp] theorem State.setSt_waitX (b : Byte) : (s.setSt b).waitX = s.waitX := rfl
@[simp] theorem State.setSt_faultCode (b : Byte) : (s.setSt b).faultCode = s.faultCode := rfl
@[simp] theorem State.setSt_faultInfo (b : Byte) : (s.setSt b).faultInfo = s.faultInfo := rfl
@[simp] theorem State.setSt_cfg (b : Byte) : (s.setSt b).cfg = s.cfg := rfl
@[simp] theorem State.setSt_draws (b : Byte) : (s.setSt b).draws = s.draws := rfl
@[simp] theorem State.setSt_events (b : Byte) : (s.setSt b).events = s.events := rfl

/-! ### `State.setStack` -/

@[simp] theorem State.setStack_v (ws : Vector Word 16) (n : Fin 17) : (s.setStack ws n).v = s.v := rfl
@[simp] theorem State.setStack_i (ws : Vector Word 16) (n : Fin 17) : (s.setStack ws n).i = s.i := rfl
@[simp] theorem State.setStack_pc (ws : Vector Word 16) (n : Fin 17) : (s.setStack ws n).pc = s.pc := rfl
@[simp] theorem State.setStack_stack (ws : Vector Word 16) (n : Fin 17) : (s.setStack ws n).stack = ws := rfl
@[simp] theorem State.setStack_sp (ws : Vector Word 16) (n : Fin 17) : (s.setStack ws n).sp = n := rfl
@[simp] theorem State.setStack_dt (ws : Vector Word 16) (n : Fin 17) : (s.setStack ws n).dt = s.dt := rfl
@[simp] theorem State.setStack_st (ws : Vector Word 16) (n : Fin 17) : (s.setStack ws n).st = s.st := rfl
@[simp] theorem State.setStack_mem (ws : Vector Word 16) (n : Fin 17) : (s.setStack ws n).mem = s.mem := rfl
@[simp] theorem State.setStack_fb (ws : Vector Word 16) (n : Fin 17) : (s.setStack ws n).fb = s.fb := rfl
@[simp] theorem State.setStack_keys (ws : Vector Word 16) (n : Fin 17) : (s.setStack ws n).keys = s.keys := rfl
@[simp] theorem State.setStack_runState (ws : Vector Word 16) (n : Fin 17) : (s.setStack ws n).runState = s.runState := rfl
@[simp] theorem State.setStack_waitX (ws : Vector Word 16) (n : Fin 17) : (s.setStack ws n).waitX = s.waitX := rfl
@[simp] theorem State.setStack_faultCode (ws : Vector Word 16) (n : Fin 17) : (s.setStack ws n).faultCode = s.faultCode := rfl
@[simp] theorem State.setStack_faultInfo (ws : Vector Word 16) (n : Fin 17) : (s.setStack ws n).faultInfo = s.faultInfo := rfl
@[simp] theorem State.setStack_cfg (ws : Vector Word 16) (n : Fin 17) : (s.setStack ws n).cfg = s.cfg := rfl
@[simp] theorem State.setStack_draws (ws : Vector Word 16) (n : Fin 17) : (s.setStack ws n).draws = s.draws := rfl
@[simp] theorem State.setStack_events (ws : Vector Word 16) (n : Fin 17) : (s.setStack ws n).events = s.events := rfl

/-! ### `State.setMem` -/

@[simp] theorem State.setMem_v (m : Memory) : (s.setMem m).v = s.v := rfl
@[simp] theorem State.setMem_i (m : Memory) : (s.setMem m).i = s.i := rfl
@[simp] theorem State.setMem_pc (m : Memory) : (s.setMem m).pc = s.pc := rfl
@[simp] theorem State.setMem_stack (m : Memory) : (s.setMem m).stack = s.stack := rfl
@[simp] theorem State.setMem_sp (m : Memory) : (s.setMem m).sp = s.sp := rfl
@[simp] theorem State.setMem_dt (m : Memory) : (s.setMem m).dt = s.dt := rfl
@[simp] theorem State.setMem_st (m : Memory) : (s.setMem m).st = s.st := rfl
@[simp] theorem State.setMem_mem (m : Memory) : (s.setMem m).mem = m := rfl
@[simp] theorem State.setMem_fb (m : Memory) : (s.setMem m).fb = s.fb := rfl
@[simp] theorem State.setMem_keys (m : Memory) : (s.setMem m).keys = s.keys := rfl
@[simp] theorem State.setMem_runState (m : Memory) : (s.setMem m).runState = s.runState := rfl
@[simp] theorem State.setMem_waitX (m : Memory) : (s.setMem m).waitX = s.waitX := rfl
@[simp] theorem State.setMem_faultCode (m : Memory) : (s.setMem m).faultCode = s.faultCode := rfl
@[simp] theorem State.setMem_faultInfo (m : Memory) : (s.setMem m).faultInfo = s.faultInfo := rfl
@[simp] theorem State.setMem_cfg (m : Memory) : (s.setMem m).cfg = s.cfg := rfl
@[simp] theorem State.setMem_draws (m : Memory) : (s.setMem m).draws = s.draws := rfl
@[simp] theorem State.setMem_events (m : Memory) : (s.setMem m).events = s.events := rfl

/-! ### `State.setFb` -/

@[simp] theorem State.setFb_v (g : Framebuffer) : (s.setFb g).v = s.v := rfl
@[simp] theorem State.setFb_i (g : Framebuffer) : (s.setFb g).i = s.i := rfl
@[simp] theorem State.setFb_pc (g : Framebuffer) : (s.setFb g).pc = s.pc := rfl
@[simp] theorem State.setFb_stack (g : Framebuffer) : (s.setFb g).stack = s.stack := rfl
@[simp] theorem State.setFb_sp (g : Framebuffer) : (s.setFb g).sp = s.sp := rfl
@[simp] theorem State.setFb_dt (g : Framebuffer) : (s.setFb g).dt = s.dt := rfl
@[simp] theorem State.setFb_st (g : Framebuffer) : (s.setFb g).st = s.st := rfl
@[simp] theorem State.setFb_mem (g : Framebuffer) : (s.setFb g).mem = s.mem := rfl
@[simp] theorem State.setFb_fb (g : Framebuffer) : (s.setFb g).fb = g := rfl
@[simp] theorem State.setFb_keys (g : Framebuffer) : (s.setFb g).keys = s.keys := rfl
@[simp] theorem State.setFb_runState (g : Framebuffer) : (s.setFb g).runState = s.runState := rfl
@[simp] theorem State.setFb_waitX (g : Framebuffer) : (s.setFb g).waitX = s.waitX := rfl
@[simp] theorem State.setFb_faultCode (g : Framebuffer) : (s.setFb g).faultCode = s.faultCode := rfl
@[simp] theorem State.setFb_faultInfo (g : Framebuffer) : (s.setFb g).faultInfo = s.faultInfo := rfl
@[simp] theorem State.setFb_cfg (g : Framebuffer) : (s.setFb g).cfg = s.cfg := rfl
@[simp] theorem State.setFb_draws (g : Framebuffer) : (s.setFb g).draws = s.draws := rfl
@[simp] theorem State.setFb_events (g : Framebuffer) : (s.setFb g).events = s.events := rfl

/-! ### `State.setKeys` -/

@[simp] theorem State.setKeys_v (ks : BitVec 16) : (s.setKeys ks).v = s.v := rfl
@[simp] theorem State.setKeys_i (ks : BitVec 16) : (s.setKeys ks).i = s.i := rfl
@[simp] theorem State.setKeys_pc (ks : BitVec 16) : (s.setKeys ks).pc = s.pc := rfl
@[simp] theorem State.setKeys_stack (ks : BitVec 16) : (s.setKeys ks).stack = s.stack := rfl
@[simp] theorem State.setKeys_sp (ks : BitVec 16) : (s.setKeys ks).sp = s.sp := rfl
@[simp] theorem State.setKeys_dt (ks : BitVec 16) : (s.setKeys ks).dt = s.dt := rfl
@[simp] theorem State.setKeys_st (ks : BitVec 16) : (s.setKeys ks).st = s.st := rfl
@[simp] theorem State.setKeys_mem (ks : BitVec 16) : (s.setKeys ks).mem = s.mem := rfl
@[simp] theorem State.setKeys_fb (ks : BitVec 16) : (s.setKeys ks).fb = s.fb := rfl
@[simp] theorem State.setKeys_keys (ks : BitVec 16) : (s.setKeys ks).keys = ks := rfl
@[simp] theorem State.setKeys_runState (ks : BitVec 16) : (s.setKeys ks).runState = s.runState := rfl
@[simp] theorem State.setKeys_waitX (ks : BitVec 16) : (s.setKeys ks).waitX = s.waitX := rfl
@[simp] theorem State.setKeys_faultCode (ks : BitVec 16) : (s.setKeys ks).faultCode = s.faultCode := rfl
@[simp] theorem State.setKeys_faultInfo (ks : BitVec 16) : (s.setKeys ks).faultInfo = s.faultInfo := rfl
@[simp] theorem State.setKeys_cfg (ks : BitVec 16) : (s.setKeys ks).cfg = s.cfg := rfl
@[simp] theorem State.setKeys_draws (ks : BitVec 16) : (s.setKeys ks).draws = s.draws := rfl
@[simp] theorem State.setKeys_events (ks : BitVec 16) : (s.setKeys ks).events = s.events := rfl

/-! ### `State.suspend` -/

@[simp] theorem State.suspend_v (x : Reg) : (s.suspend x).v = s.v := rfl
@[simp] theorem State.suspend_i (x : Reg) : (s.suspend x).i = s.i := rfl
@[simp] theorem State.suspend_pc (x : Reg) : (s.suspend x).pc = s.pc := rfl
@[simp] theorem State.suspend_stack (x : Reg) : (s.suspend x).stack = s.stack := rfl
@[simp] theorem State.suspend_sp (x : Reg) : (s.suspend x).sp = s.sp := rfl
@[simp] theorem State.suspend_dt (x : Reg) : (s.suspend x).dt = s.dt := rfl
@[simp] theorem State.suspend_st (x : Reg) : (s.suspend x).st = s.st := rfl
@[simp] theorem State.suspend_mem (x : Reg) : (s.suspend x).mem = s.mem := rfl
@[simp] theorem State.suspend_fb (x : Reg) : (s.suspend x).fb = s.fb := rfl
@[simp] theorem State.suspend_keys (x : Reg) : (s.suspend x).keys = s.keys := rfl
@[simp] theorem State.suspend_runState (x : Reg) : (s.suspend x).runState = .waitingForKey := rfl
@[simp] theorem State.suspend_waitX (x : Reg) : (s.suspend x).waitX = x := rfl
@[simp] theorem State.suspend_faultCode (x : Reg) : (s.suspend x).faultCode = s.faultCode := rfl
@[simp] theorem State.suspend_faultInfo (x : Reg) : (s.suspend x).faultInfo = s.faultInfo := rfl
@[simp] theorem State.suspend_cfg (x : Reg) : (s.suspend x).cfg = s.cfg := rfl
@[simp] theorem State.suspend_draws (x : Reg) : (s.suspend x).draws = s.draws := rfl
@[simp] theorem State.suspend_events (x : Reg) : (s.suspend x).events = s.events := rfl

/-! ### `State.resume` -/

@[simp] theorem State.resume_v : (s.resume).v = s.v := rfl
@[simp] theorem State.resume_i : (s.resume).i = s.i := rfl
@[simp] theorem State.resume_pc : (s.resume).pc = s.pc := rfl
@[simp] theorem State.resume_stack : (s.resume).stack = s.stack := rfl
@[simp] theorem State.resume_sp : (s.resume).sp = s.sp := rfl
@[simp] theorem State.resume_dt : (s.resume).dt = s.dt := rfl
@[simp] theorem State.resume_st : (s.resume).st = s.st := rfl
@[simp] theorem State.resume_mem : (s.resume).mem = s.mem := rfl
@[simp] theorem State.resume_fb : (s.resume).fb = s.fb := rfl
@[simp] theorem State.resume_keys : (s.resume).keys = s.keys := rfl
@[simp] theorem State.resume_runState : (s.resume).runState = .running := rfl
@[simp] theorem State.resume_waitX : (s.resume).waitX = s.waitX := rfl
@[simp] theorem State.resume_faultCode : (s.resume).faultCode = s.faultCode := rfl
@[simp] theorem State.resume_faultInfo : (s.resume).faultInfo = s.faultInfo := rfl
@[simp] theorem State.resume_cfg : (s.resume).cfg = s.cfg := rfl
@[simp] theorem State.resume_draws : (s.resume).draws = s.draws := rfl
@[simp] theorem State.resume_events : (s.resume).events = s.events := rfl

/-! ### `State.countDraw` -/

@[simp] theorem State.countDraw_v : (s.countDraw).v = s.v := rfl
@[simp] theorem State.countDraw_i : (s.countDraw).i = s.i := rfl
@[simp] theorem State.countDraw_pc : (s.countDraw).pc = s.pc := rfl
@[simp] theorem State.countDraw_stack : (s.countDraw).stack = s.stack := rfl
@[simp] theorem State.countDraw_sp : (s.countDraw).sp = s.sp := rfl
@[simp] theorem State.countDraw_dt : (s.countDraw).dt = s.dt := rfl
@[simp] theorem State.countDraw_st : (s.countDraw).st = s.st := rfl
@[simp] theorem State.countDraw_mem : (s.countDraw).mem = s.mem := rfl
@[simp] theorem State.countDraw_fb : (s.countDraw).fb = s.fb := rfl
@[simp] theorem State.countDraw_keys : (s.countDraw).keys = s.keys := rfl
@[simp] theorem State.countDraw_runState : (s.countDraw).runState = s.runState := rfl
@[simp] theorem State.countDraw_waitX : (s.countDraw).waitX = s.waitX := rfl
@[simp] theorem State.countDraw_faultCode : (s.countDraw).faultCode = s.faultCode := rfl
@[simp] theorem State.countDraw_faultInfo : (s.countDraw).faultInfo = s.faultInfo := rfl
@[simp] theorem State.countDraw_cfg : (s.countDraw).cfg = s.cfg := rfl
@[simp] theorem State.countDraw_draws : (s.countDraw).draws = s.draws + 1 := rfl
@[simp] theorem State.countDraw_events : (s.countDraw).events = s.events := rfl

/-! ### `State.takeFault` -/

@[simp] theorem State.takeFault_v (e : Raise) : (s.takeFault e).v = s.v := rfl
@[simp] theorem State.takeFault_i (e : Raise) : (s.takeFault e).i = s.i := rfl
@[simp] theorem State.takeFault_pc (e : Raise) : (s.takeFault e).pc = s.pc := rfl
@[simp] theorem State.takeFault_stack (e : Raise) : (s.takeFault e).stack = s.stack := rfl
@[simp] theorem State.takeFault_sp (e : Raise) : (s.takeFault e).sp = s.sp := rfl
@[simp] theorem State.takeFault_dt (e : Raise) : (s.takeFault e).dt = s.dt := rfl
@[simp] theorem State.takeFault_st (e : Raise) : (s.takeFault e).st = s.st := rfl
@[simp] theorem State.takeFault_mem (e : Raise) : (s.takeFault e).mem = s.mem := rfl
@[simp] theorem State.takeFault_fb (e : Raise) : (s.takeFault e).fb = s.fb := rfl
@[simp] theorem State.takeFault_keys (e : Raise) : (s.takeFault e).keys = s.keys := rfl
@[simp] theorem State.takeFault_runState (e : Raise) : (s.takeFault e).runState = .halted := rfl
@[simp] theorem State.takeFault_waitX (e : Raise) : (s.takeFault e).waitX = s.waitX := rfl
@[simp] theorem State.takeFault_faultCode (e : Raise) : (s.takeFault e).faultCode = e.code := rfl
@[simp] theorem State.takeFault_faultInfo (e : Raise) : (s.takeFault e).faultInfo = e.info := rfl
@[simp] theorem State.takeFault_cfg (e : Raise) : (s.takeFault e).cfg = s.cfg := rfl
@[simp] theorem State.takeFault_draws (e : Raise) : (s.takeFault e).draws = s.draws := rfl
@[simp] theorem State.takeFault_events (e : Raise) : (s.takeFault e).events = s.events := rfl

/-! ### `State.halt` -/

@[simp] theorem State.halt_v (c : FaultCode) (w : Word) : (s.halt c w).v = s.v := rfl
@[simp] theorem State.halt_i (c : FaultCode) (w : Word) : (s.halt c w).i = s.i := rfl
@[simp] theorem State.halt_pc (c : FaultCode) (w : Word) : (s.halt c w).pc = s.pc := rfl
@[simp] theorem State.halt_stack (c : FaultCode) (w : Word) : (s.halt c w).stack = s.stack := rfl
@[simp] theorem State.halt_sp (c : FaultCode) (w : Word) : (s.halt c w).sp = s.sp := rfl
@[simp] theorem State.halt_dt (c : FaultCode) (w : Word) : (s.halt c w).dt = s.dt := rfl
@[simp] theorem State.halt_st (c : FaultCode) (w : Word) : (s.halt c w).st = s.st := rfl
@[simp] theorem State.halt_mem (c : FaultCode) (w : Word) : (s.halt c w).mem = s.mem := rfl
@[simp] theorem State.halt_fb (c : FaultCode) (w : Word) : (s.halt c w).fb = s.fb := rfl
@[simp] theorem State.halt_keys (c : FaultCode) (w : Word) : (s.halt c w).keys = s.keys := rfl
@[simp] theorem State.halt_runState (c : FaultCode) (w : Word) : (s.halt c w).runState = .halted := rfl
@[simp] theorem State.halt_waitX (c : FaultCode) (w : Word) : (s.halt c w).waitX = s.waitX := rfl
@[simp] theorem State.halt_faultCode (c : FaultCode) (w : Word) : (s.halt c w).faultCode = c := rfl
@[simp] theorem State.halt_faultInfo (c : FaultCode) (w : Word) : (s.halt c w).faultInfo = w := rfl
@[simp] theorem State.halt_cfg (c : FaultCode) (w : Word) : (s.halt c w).cfg = s.cfg := rfl
@[simp] theorem State.halt_draws (c : FaultCode) (w : Word) : (s.halt c w).draws = s.draws := rfl
@[simp] theorem State.halt_events (c : FaultCode) (w : Word) : (s.halt c w).events = s.events := rfl

/-! ### `State.dropEvent` -/

@[simp] theorem State.dropEvent_v : (s.dropEvent).v = s.v := rfl
@[simp] theorem State.dropEvent_i : (s.dropEvent).i = s.i := rfl
@[simp] theorem State.dropEvent_pc : (s.dropEvent).pc = s.pc := rfl
@[simp] theorem State.dropEvent_stack : (s.dropEvent).stack = s.stack := rfl
@[simp] theorem State.dropEvent_sp : (s.dropEvent).sp = s.sp := rfl
@[simp] theorem State.dropEvent_dt : (s.dropEvent).dt = s.dt := rfl
@[simp] theorem State.dropEvent_st : (s.dropEvent).st = s.st := rfl
@[simp] theorem State.dropEvent_mem : (s.dropEvent).mem = s.mem := rfl
@[simp] theorem State.dropEvent_fb : (s.dropEvent).fb = s.fb := rfl
@[simp] theorem State.dropEvent_keys : (s.dropEvent).keys = s.keys := rfl
@[simp] theorem State.dropEvent_runState : (s.dropEvent).runState = s.runState := rfl
@[simp] theorem State.dropEvent_waitX : (s.dropEvent).waitX = s.waitX := rfl
@[simp] theorem State.dropEvent_faultCode : (s.dropEvent).faultCode = s.faultCode := rfl
@[simp] theorem State.dropEvent_faultInfo : (s.dropEvent).faultInfo = s.faultInfo := rfl
@[simp] theorem State.dropEvent_cfg : (s.dropEvent).cfg = s.cfg := rfl
@[simp] theorem State.dropEvent_draws : (s.dropEvent).draws = s.draws := rfl
@[simp] theorem State.dropEvent_events : (s.dropEvent).events = s.events.tail := rfl

/-! ### Derived updates in terms of the ones above -/

@[simp] theorem State.advance_eq : s.advance = s.setPc (s.pc + 2) := rfl

@[simp] theorem State.skipIf_eq (c : Bool) : s.skipIf c = s.setPc (s.pc + if c then 4 else 2) := rfl

@[simp] theorem State.setFlag_eq (c : Bool) : s.setFlag c = s.setReg regVF (flagByte c) := rfl

@[simp] theorem State.setFlagThenReg_eq (c : Bool) (x : Reg) (b : Byte) :
    s.setFlagThenReg c x b = (s.setReg regVF (flagByte c)).setReg x b := rfl

/-! ### Reading a register, a byte or a pixel after an update -/

/-- Read after write, one register file: the register written holds the byte, every other one what
it held. -/
theorem State.reg_setReg (r q : Reg) (b : Byte) :
    (s.setReg r b).reg q = if q = r then b else s.reg q := by
  simp only [State.reg, State.setReg, Fin.getElem_fin, Vector.getElem_set]
  by_cases h : q = r
  · simp [h]
  · simp [h, Fin.val_inj, Ne.symm h]

@[simp] theorem State.reg_setReg_same (r : Reg) (b : Byte) : (s.setReg r b).reg r = b := by
  simp [State.reg_setReg]

theorem State.reg_setReg_other {r q : Reg} (b : Byte) (h : q ≠ r) :
    (s.setReg r b).reg q = s.reg q := by
  simp [State.reg_setReg, h]

@[simp] theorem State.reg_setI (w : Word) (q : Reg) : (s.setI w).reg q = s.reg q := rfl
@[simp] theorem State.reg_setPc (w : Word) (q : Reg) : (s.setPc w).reg q = s.reg q := rfl
@[simp] theorem State.reg_setDt (b : Byte) (q : Reg) : (s.setDt b).reg q = s.reg q := rfl
@[simp] theorem State.reg_setSt (b : Byte) (q : Reg) : (s.setSt b).reg q = s.reg q := rfl
@[simp] theorem State.reg_setStack (ws : Vector Word 16) (n : Fin 17) (q : Reg) : (s.setStack ws n).reg q = s.reg q := rfl
@[simp] theorem State.reg_setMem (m : Memory) (q : Reg) : (s.setMem m).reg q = s.reg q := rfl
@[simp] theorem State.reg_setFb (g : Framebuffer) (q : Reg) : (s.setFb g).reg q = s.reg q := rfl
@[simp] theorem State.reg_setKeys (ks : BitVec 16) (q : Reg) : (s.setKeys ks).reg q = s.reg q := rfl
@[simp] theorem State.reg_suspend (x : Reg) (q : Reg) : (s.suspend x).reg q = s.reg q := rfl
@[simp] theorem State.reg_resume (q : Reg) : (s.resume).reg q = s.reg q := rfl
@[simp] theorem State.reg_countDraw (q : Reg) : (s.countDraw).reg q = s.reg q := rfl
@[simp] theorem State.reg_takeFault (e : Raise) (q : Reg) : (s.takeFault e).reg q = s.reg q := rfl
@[simp] theorem State.reg_halt (c : FaultCode) (w : Word) (q : Reg) : (s.halt c w).reg q = s.reg q := rfl
@[simp] theorem State.reg_dropEvent (q : Reg) : (s.dropEvent).reg q = s.reg q := rfl
@[simp] theorem State.reg_setRegs (w : Vector Byte 16) (q : Reg) : (s.setRegs w).reg q = w[q] := rfl

@[simp] theorem State.readByte_setReg (r : Reg) (b : Byte) (a : Nat) : (s.setReg r b).readByte a = s.readByte a := rfl
@[simp] theorem State.readByte_setRegs (w : Vector Byte 16) (a : Nat) : (s.setRegs w).readByte a = s.readByte a := rfl
@[simp] theorem State.readByte_setI (w : Word) (a : Nat) : (s.setI w).readByte a = s.readByte a := rfl
@[simp] theorem State.readByte_setPc (w : Word) (a : Nat) : (s.setPc w).readByte a = s.readByte a := rfl
@[simp] theorem State.readByte_setDt (b : Byte) (a : Nat) : (s.setDt b).readByte a = s.readByte a := rfl
@[simp] theorem State.readByte_setSt (b : Byte) (a : Nat) : (s.setSt b).readByte a = s.readByte a := rfl
@[simp] theorem State.readByte_setStack (ws : Vector Word 16) (n : Fin 17) (a : Nat) : (s.setStack ws n).readByte a = s.readByte a := rfl
@[simp] theorem State.readByte_setFb (g : Framebuffer) (a : Nat) : (s.setFb g).readByte a = s.readByte a := rfl
@[simp] theorem State.readByte_setKeys (ks : BitVec 16) (a : Nat) : (s.setKeys ks).readByte a = s.readByte a := rfl
@[simp] theorem State.readByte_suspend (x : Reg) (a : Nat) : (s.suspend x).readByte a = s.readByte a := rfl
@[simp] theorem State.readByte_resume (a : Nat) : (s.resume).readByte a = s.readByte a := rfl
@[simp] theorem State.readByte_countDraw (a : Nat) : (s.countDraw).readByte a = s.readByte a := rfl
@[simp] theorem State.readByte_takeFault (e : Raise) (a : Nat) : (s.takeFault e).readByte a = s.readByte a := rfl
@[simp] theorem State.readByte_halt (c : FaultCode) (w : Word) (a : Nat) : (s.halt c w).readByte a = s.readByte a := rfl
@[simp] theorem State.readByte_dropEvent (a : Nat) : (s.dropEvent).readByte a = s.readByte a := rfl
@[simp] theorem State.readByte_setMem (m : Memory) (a : Nat) :
    (s.setMem m).readByte a = Memory.read s.cfg.resetByte m a := rfl

@[simp] theorem State.pixel_setReg (r : Reg) (b : Byte) (p : Fin 32) (k : Fin 64) : (s.setReg r b).pixel p k = s.pixel p k := rfl
@[simp] theorem State.pixel_setRegs (w : Vector Byte 16) (p : Fin 32) (k : Fin 64) : (s.setRegs w).pixel p k = s.pixel p k := rfl
@[simp] theorem State.pixel_setI (w : Word) (p : Fin 32) (k : Fin 64) : (s.setI w).pixel p k = s.pixel p k := rfl
@[simp] theorem State.pixel_setPc (w : Word) (p : Fin 32) (k : Fin 64) : (s.setPc w).pixel p k = s.pixel p k := rfl
@[simp] theorem State.pixel_setDt (b : Byte) (p : Fin 32) (k : Fin 64) : (s.setDt b).pixel p k = s.pixel p k := rfl
@[simp] theorem State.pixel_setSt (b : Byte) (p : Fin 32) (k : Fin 64) : (s.setSt b).pixel p k = s.pixel p k := rfl
@[simp] theorem State.pixel_setStack (ws : Vector Word 16) (n : Fin 17) (p : Fin 32) (k : Fin 64) : (s.setStack ws n).pixel p k = s.pixel p k := rfl
@[simp] theorem State.pixel_setMem (m : Memory) (p : Fin 32) (k : Fin 64) : (s.setMem m).pixel p k = s.pixel p k := rfl
@[simp] theorem State.pixel_setKeys (ks : BitVec 16) (p : Fin 32) (k : Fin 64) : (s.setKeys ks).pixel p k = s.pixel p k := rfl
@[simp] theorem State.pixel_suspend (x : Reg) (p : Fin 32) (k : Fin 64) : (s.suspend x).pixel p k = s.pixel p k := rfl
@[simp] theorem State.pixel_resume (p : Fin 32) (k : Fin 64) : (s.resume).pixel p k = s.pixel p k := rfl
@[simp] theorem State.pixel_countDraw (p : Fin 32) (k : Fin 64) : (s.countDraw).pixel p k = s.pixel p k := rfl
@[simp] theorem State.pixel_takeFault (e : Raise) (p : Fin 32) (k : Fin 64) : (s.takeFault e).pixel p k = s.pixel p k := rfl
@[simp] theorem State.pixel_halt (c : FaultCode) (w : Word) (p : Fin 32) (k : Fin 64) : (s.halt c w).pixel p k = s.pixel p k := rfl
@[simp] theorem State.pixel_dropEvent (p : Fin 32) (k : Fin 64) : (s.dropEvent).pixel p k = s.pixel p k := rfl
@[simp] theorem State.pixel_setFb (g : Framebuffer) (p : Fin 32) (c : Fin 64) :
    (s.setFb g).pixel p c = Framebuffer.pixel g p c := rfl

/-- Read after write, one framebuffer: the pixel written holds the bit, every other one what it held. -/
theorem Framebuffer.pixel_setPixel (fb : Framebuffer) (p q : Fin 32) (c e : Fin 64) (b : Bool) :
    (Framebuffer.setPixel fb p c b).pixel q e = if q = p ∧ e = c then b else fb.pixel q e := by
  simp only [Framebuffer.pixel, Framebuffer.setPixel, Fin.getElem_fin, Vector.getElem_set]
  by_cases hq : q = p
  · subst hq
    by_cases he : e = c
    · simp [he]
    · have : ¬ (c : Nat) = e := fun h => he (Fin.ext h.symm)
      simp [he, this]
  · have : ¬ (p : Nat) = q := fun h => hq (Fin.ext h.symm)
    simp [hq, this]

/-- Every pixel of the cleared grid is off. -/
@[simp] theorem Framebuffer.pixel_clear (p : Fin 32) (c : Fin 64) :
    Framebuffer.clear.pixel p c = false := by
  simp [Framebuffer.pixel, Framebuffer.clear]

/-- Two framebuffers with the same pixels are the same. -/
theorem Framebuffer.ext_pixel {f g : Framebuffer} (h : ∀ p c, f.pixel p c = g.pixel p c) : f = g := by
  apply Vector.ext
  intro i hi
  apply Vector.ext
  intro j hj
  exact h ⟨i, hi⟩ ⟨j, hj⟩

/-- Two register files with the same registers are the same. -/
theorem State.v_ext {s t : State} (h : ∀ r, t.reg r = s.reg r) : t.v = s.v := by
  apply Vector.ext
  intro i hi
  exact h ⟨i, hi⟩

/-- `V[k]`, `V[k + 1]`, … after a block load: the byte given where there is one, else the old byte. -/
theorem getElem_writeRegs (bs : List Byte) (v : Vector Byte 16) (k : Nat) (r : Reg) :
    (writeRegs v k bs)[r] = if k ≤ r.val then (bs[r.val - k]?).getD v[r] else v[r] := by
  induction bs generalizing v k with
  | nil => simp [writeRegs]
  | cons b bs ih =>
    rw [writeRegs, ih]
    simp only [Fin.getElem_fin, Vector.getElem_setIfInBounds]
    by_cases h : k + 1 ≤ r.val
    · have h1 : k ≤ r.val := by omega
      have h2 : k ≠ r.val := by omega
      have h3 : r.val - k = (r.val - (k + 1)) + 1 := by omega
      simp [h, h1, h2, h3]
    · by_cases heq : k = r.val
      · simp [heq]
      · have h1 : ¬ k ≤ r.val := by omega
        simp [h, h1, heq]

end Sys2Proof.Machine
end

