-- ==== Sys2Proof/Laws/Ops.lean ====
section
/-! SUPPORT. One lemma for each shared operation that says once everything it can do. -/

namespace Sys2Proof.Machine

variable {s t : State}

@[simp] theorem State.commit_ok (s t : State) : s.commit (.ok t) = .next t := rfl

@[simp] theorem State.commit_error (s : State) (e : Raise) : s.commit (.error e) = .next (s.takeFault e) := rfl

/-- A handler's end is always a next state: its own, or the fault entry of the state before it. -/
theorem State.commit_cases {r : Except Raise State} (h : s.commit r = .next t) :
    r = .ok t ∨ ∃ e, r = .error e ∧ t = s.takeFault e := by
  cases r with
  | ok u => simp only [State.commit_ok, Host.Outcome.next.injEq] at h; exact .inl (by rw [h])
  | error e => simp only [State.commit_error, Host.Outcome.next.injEq] at h; exact .inr ⟨e, rfl, h.symm⟩

@[simp] theorem accessFits_iff (addr : Word) (n : Nat) :
    accessFits addr n = true ↔ addr.toNat + n ≤ 4096 :=
  decide_eq_true_iff

theorem State.memRead_ok {addr : Word} {n : Nat} (h : addr.toNat + n ≤ 4096) :
    s.memRead addr n = .ok (Memory.readRange s.cfg.resetByte s.mem addr.toNat n) := by
  simp [State.memRead, h]

theorem State.memRead_error {addr : Word} {n : Nat} (h : ¬ addr.toNat + n ≤ 4096) :
    s.memRead addr n = .error (outOfRange addr) := by
  simp [State.memRead, h]

theorem State.memWrite_error {addr : Word} {bytes : List Byte} (h : ¬ addr.toNat + bytes.length ≤ 4096) :
    s.memWrite addr bytes = .error (outOfRange addr) := by
  simp [State.memWrite, h]

theorem State.memWrite_ok {addr : Word} {bytes : List Byte} (h : addr.toNat + bytes.length ≤ 4096) :
    s.memWrite addr bytes =
      .ok (s.setMem (Memory.writeRange s.cfg.resetByte s.mem addr.toNat bytes)) := by
  simp [State.memWrite, h]

/-- Everything a memory write can do: it fits, only `mem` changes, the canonical form is kept and
each byte reads as written or as before. -/
theorem State.memWrite_spec {addr : Word} {bytes : List Byte} (hwf : s.memWf = true)
    (h : s.memWrite addr bytes = .ok t) :
    addr.toNat + bytes.length ≤ 4096 ∧ t = s.setMem t.mem ∧ t.memWf = true ∧
    ∀ a, t.readByte a =
      if addr.toNat ≤ a then (bytes[a - addr.toNat]?).getD (s.readByte a) else s.readByte a := by
  by_cases hf : addr.toNat + bytes.length ≤ 4096
  · rw [State.memWrite_ok hf] at h
    cases h
    exact ⟨hf, rfl, Memory.wf_writeRange hwf _ _ hf, Memory.read_writeRange hwf _ _ hf⟩
  · rw [State.memWrite_error hf] at h
    cases h

/-- Everything a store at `I` that fits can do: memory and `PC` change, and each byte reads as stored
or as before. -/
theorem State.storeAtI_spec {bytes : List Byte} (hwf : s.memWf = true)
    (h : s.i.toNat + bytes.length ≤ 4096) :
    ∃ u, s.storeAtI bytes = .next u ∧ u = (s.setMem u.mem).advance ∧ u.memWf = true ∧
      ∀ a, u.readByte a =
        if s.i.toNat ≤ a then (bytes[a - s.i.toNat]?).getD (s.readByte a) else s.readByte a := by
  have hw := State.memWrite_ok (s := s) h
  obtain ⟨-, -, hwf', hr⟩ := State.memWrite_spec hwf hw
  exact ⟨(s.setMem (Memory.writeRange s.cfg.resetByte s.mem s.i.toNat bytes)).advance,
    by simp only [State.storeAtI, hw, State.commit_ok], rfl, hwf', hr⟩

/-- A store at `I` that does not fit is the fault entry. -/
theorem State.storeAtI_error {bytes : List Byte} (h : ¬ s.i.toNat + bytes.length ≤ 4096) :
    s.storeAtI bytes = .next (s.takeFault (outOfRange s.i)) := by
  simp only [State.storeAtI, State.memWrite_error h, State.commit_error]

/-- Everything a push can do. -/
theorem State.push_spec {w : Word} (h : s.push w = .ok t) :
    s.sp.val < s.cfg.stackDepth ∧
    t = s.setStack (s.stack.setIfInBounds s.sp.val w) (s.sp + 1) := by
  unfold State.push at h
  split at h
  · cases h; exact ⟨by assumption, rfl⟩
  · cases h

/-- Everything a failing push can do. -/
theorem State.push_error {w : Word} {e : Raise} (h : s.push w = .error e) :
    s.cfg.stackDepth ≤ s.sp.val ∧ e = ⟨.stackOverflow, BitVec.ofNat 16 s.sp.val⟩ := by
  unfold State.push at h
  split at h
  · cases h
  · cases h; exact ⟨by omega, rfl⟩

/-- Everything a pop can do. -/
theorem State.pop_spec {w : Word} (h : s.pop = .ok (w, t)) :
    s.sp ≠ 0 ∧ w = s.top ∧ t = s.setStack s.stack (s.sp - 1) := by
  unfold State.pop at h
  split at h
  · cases h
  · cases h; exact ⟨by assumption, rfl, rfl⟩

/-- Everything a failing pop can do. -/
theorem State.pop_error {e : Raise} (h : s.pop = .error e) :
    s.sp = 0 ∧ e = ⟨.stackUnderflow, 0⟩ := by
  unfold State.pop at h
  split at h
  · cases h; exact ⟨by assumption, rfl⟩
  · cases h

/-- The word at `PC`, when both its bytes exist: high byte first. -/
theorem State.fetch_ok (h : s.pc.toNat + 2 ≤ 4096) :
    s.fetch = .ok (beWord [s.readByte s.pc.toNat, s.readByte (s.pc.toNat + 1)]) := by
  simp only [State.fetch, State.memRead_ok h]
  rfl

theorem State.fetch_error (h : ¬ s.pc.toNat + 2 ≤ 4096) : s.fetch = .error (outOfRange s.pc) := by
  simp only [State.fetch, State.memRead_error h]

/-- Everything a `Cycle` can do: nothing outside Running; a fault at the fetch or the decode; or the
instruction fetched. -/
theorem State.cycle_cases (s : State) :
    (s.runState ≠ .running ∧ s.cycle = .next s) ∨
    (s.runState = .running ∧ ∃ e, s.fetch = .error e ∧ s.cycle = .next (s.takeFault e)) ∨
    (s.runState = .running ∧ ∃ op r, s.fetch = .ok op ∧ decodeWord op = .error r ∧
      s.cycle = .next (s.takeFault ⟨.unimplementedOpcode, op⟩)) ∨
    (s.runState = .running ∧ ∃ op i, s.fetch = .ok op ∧ decodeWord op = .ok i ∧ s.cycle = exec i s) := by
  unfold State.cycle
  cases hr : s.runState with
  | waitingForKey => exact .inl ⟨by simp, rfl⟩
  | halted => exact .inl ⟨by simp, rfl⟩
  | running =>
    refine .inr ?_
    cases hf : s.fetch with
    | error e => exact .inl ⟨rfl, e, rfl, rfl⟩
    | ok op =>
      refine .inr ?_
      cases hd : decodeWord op with
      | error r => exact .inl ⟨rfl, op, r, rfl, hd, by simp only [hd]⟩
      | ok i => exact .inr ⟨rfl, op, i, rfl, hd, by simp only [hd]⟩

end Sys2Proof.Machine
end

