-- ==== Sys2Proof/Laws/PerInstr.lean ====
section
/-! SUPPORT. The family EncodingRow: for every constructor, the word of the instruction has the fixed
bits of its row, and the instruction is well formed. -/

namespace Sys2Proof.Laws.EncodingRow

/-- The encoded word matches its own row of the opcode table, and the operand fields pass the checks
of well-formedness (spec/30_encoding.md R71, R73). -/
def Statement (i : Instr) : Prop := i.row.selectedBy (encodeWord i) = true ∧ i.wf = true

theorem fits_x (r : Reg) : (Field.x r).fits = true := decide_eq_true r.isLt
theorem fits_y (r : Reg) : (Field.y r).fits = true := decide_eq_true r.isLt
theorem fits_n (r : Rows) : (Field.n r).fits = true := decide_eq_true r.isLt
theorem fits_nn (b : Byte) : (Field.nn b).fits = true := decide_eq_true b.isLt
theorem fits_nnn (a : Addr12) : (Field.nnn a).fits = true := decide_eq_true a.isLt

theorem wf_nnn (a : Addr12) : fieldsWf [.nnn a] = true := by
  simp [fieldsWf, fits_nnn]; rfl

theorem wf_x (x : Reg) : fieldsWf [.x x] = true := by
  simp [fieldsWf, fits_x]; rfl

theorem wf_x_nn (x : Reg) (b : Byte) : fieldsWf [.x x, .nn b] = true := by
  simp [fieldsWf, fits_x, fits_nn]; refine ⟨⟨rfl, rfl⟩, rfl⟩

theorem wf_x_y (x y : Reg) : fieldsWf [.x x, .y y] = true := by
  simp [fieldsWf, fits_x, fits_y]; refine ⟨⟨rfl, rfl⟩, rfl⟩

theorem wf_x_y_n (x y : Reg) (n : Rows) : fieldsWf [.x x, .y y, .n n] = true := by
  simp [fieldsWf, fits_x, fits_y, fits_n]; refine ⟨⟨rfl, rfl, rfl⟩, ⟨rfl, rfl⟩, rfl⟩

/-- A word of format NNN keeps its class under the class mask. -/
theorem selected_NNN (c : Nibble) (nnn : Addr12) : encodeNNN c nnn &&& 0xF000 = c ++ 0#12 := by
  apply BitVec.eq_of_getLsbD_eq
  intro k hk
  simp only [encodeNNN, BitVec.getLsbD_and, BitVec.getLsbD_append]
  interval_cases k <;> simp

/-- A word of format XNN keeps its class under the class mask. -/
theorem selected_XNN (c : Nibble) (x : Reg) (nn : Byte) : encodeXNN c x nn &&& 0xF000 = c ++ 0#12 := by
  apply BitVec.eq_of_getLsbD_eq
  intro k hk
  simp only [encodeXNN, BitVec.getLsbD_and, BitVec.getLsbD_append]
  interval_cases k <;> simp

/-- A word of format XYN keeps its class under the class mask. -/
theorem selected_XYN (c : Nibble) (x y : Reg) (n : Nibble) : encodeXY c x y n &&& 0xF000 = c ++ 0#12 := by
  apply BitVec.eq_of_getLsbD_eq
  intro k hk
  simp only [encodeXY, BitVec.getLsbD_and, BitVec.getLsbD_append]
  interval_cases k <;> simp

/-- A word of format XY keeps its class and its minor nibble under the mask 0xF00F. -/
theorem selected_XY (c : Nibble) (x y : Reg) (low : Nibble) :
    encodeXY c x y low &&& 0xF00F = c ++ 0#8 ++ low := by
  apply BitVec.eq_of_getLsbD_eq
  intro k hk
  simp only [encodeXY, BitVec.getLsbD_and, BitVec.getLsbD_append]
  interval_cases k <;> simp

/-- A word of format X keeps its class and its low byte under the mask 0xF0FF. -/
theorem selected_X (c : Nibble) (x : Reg) (m : Byte) : encodeX c x m &&& 0xF0FF = c ++ 0#4 ++ m := by
  apply BitVec.eq_of_getLsbD_eq
  intro k hk
  simp only [encodeX, encodeXNN, BitVec.getLsbD_and, BitVec.getLsbD_append]
  interval_cases k <;> simp

theorem of_eq {i : Instr} {w : Word} (h : encodeWord i &&& i.row.mask = w) (hw : w = i.row.matchBits)
    (hf : i.wf = true) : Statement i :=
  ⟨by simp [Row.selectedBy, h, hw], hf⟩

theorem cls : Statement .cls := ⟨rfl, rfl⟩
theorem ret : Statement .ret := ⟨rfl, rfl⟩
theorem jp (a : Addr12) : Statement (.jp a) := of_eq (selected_NNN 0x1 a) rfl (wf_nnn a)
theorem call (a : Addr12) : Statement (.call a) := of_eq (selected_NNN 0x2 a) rfl (wf_nnn a)
theorem seByte (x : Reg) (b : Byte) : Statement (.seByte x b) := of_eq (selected_XNN 0x3 x b) rfl (wf_x_nn x b)
theorem sneByte (x : Reg) (b : Byte) : Statement (.sneByte x b) := of_eq (selected_XNN 0x4 x b) rfl (wf_x_nn x b)
theorem seReg (x y : Reg) : Statement (.seReg x y) := of_eq (selected_XY 0x5 x y 0x0) rfl (wf_x_y x y)
theorem ldByte (x : Reg) (b : Byte) : Statement (.ldByte x b) := of_eq (selected_XNN 0x6 x b) rfl (wf_x_nn x b)
theorem addByte (x : Reg) (b : Byte) : Statement (.addByte x b) := of_eq (selected_XNN 0x7 x b) rfl (wf_x_nn x b)
theorem ldReg (x y : Reg) : Statement (.ldReg x y) := of_eq (selected_XY 0x8 x y 0x0) rfl (wf_x_y x y)
theorem orReg (x y : Reg) : Statement (.orReg x y) := of_eq (selected_XY 0x8 x y 0x1) rfl (wf_x_y x y)
theorem andReg (x y : Reg) : Statement (.andReg x y) := of_eq (selected_XY 0x8 x y 0x2) rfl (wf_x_y x y)
theorem xorReg (x y : Reg) : Statement (.xorReg x y) := of_eq (selected_XY 0x8 x y 0x3) rfl (wf_x_y x y)
theorem addReg (x y : Reg) : Statement (.addReg x y) := of_eq (selected_XY 0x8 x y 0x4) rfl (wf_x_y x y)
theorem subReg (x y : Reg) : Statement (.subReg x y) := of_eq (selected_XY 0x8 x y 0x5) rfl (wf_x_y x y)
theorem shrReg (x y : Reg) : Statement (.shrReg x y) := of_eq (selected_XY 0x8 x y 0x6) rfl (wf_x_y x y)
theorem subnReg (x y : Reg) : Statement (.subnReg x y) := of_eq (selected_XY 0x8 x y 0x7) rfl (wf_x_y x y)
theorem shlReg (x y : Reg) : Statement (.shlReg x y) := of_eq (selected_XY 0x8 x y 0xE) rfl (wf_x_y x y)
theorem sneReg (x y : Reg) : Statement (.sneReg x y) := of_eq (selected_XY 0x9 x y 0x0) rfl (wf_x_y x y)
theorem ldI (a : Addr12) : Statement (.ldI a) := of_eq (selected_NNN 0xA a) rfl (wf_nnn a)
theorem jpV0 (a : Addr12) : Statement (.jpV0 a) := of_eq (selected_NNN 0xB a) rfl (wf_nnn a)
theorem rnd (x : Reg) (b : Byte) : Statement (.rnd x b) := of_eq (selected_XNN 0xC x b) rfl (wf_x_nn x b)
theorem drw (x y : Reg) (n : Rows) : Statement (.drw x y n) :=
  of_eq (selected_XYN 0xD x y (BitVec.ofFin (w := 4) n)) rfl (wf_x_y_n x y n)
theorem skp (x : Reg) : Statement (.skp x) := of_eq (selected_X 0xE x 0x9E) rfl (wf_x x)
theorem sknp (x : Reg) : Statement (.sknp x) := of_eq (selected_X 0xE x 0xA1) rfl (wf_x x)
theorem ldVxDT (x : Reg) : Statement (.ldVxDT x) := of_eq (selected_X 0xF x 0x07) rfl (wf_x x)
theorem ldVxK (x : Reg) : Statement (.ldVxK x) := of_eq (selected_X 0xF x 0x0A) rfl (wf_x x)
theorem ldDTVx (x : Reg) : Statement (.ldDTVx x) := of_eq (selected_X 0xF x 0x15) rfl (wf_x x)
theorem ldSTVx (x : Reg) : Statement (.ldSTVx x) := of_eq (selected_X 0xF x 0x18) rfl (wf_x x)
theorem addIVx (x : Reg) : Statement (.addIVx x) := of_eq (selected_X 0xF x 0x1E) rfl (wf_x x)
theorem ldFVx (x : Reg) : Statement (.ldFVx x) := of_eq (selected_X 0xF x 0x29) rfl (wf_x x)
theorem ldBVx (x : Reg) : Statement (.ldBVx x) := of_eq (selected_X 0xF x 0x33) rfl (wf_x x)
theorem ldMemVx (x : Reg) : Statement (.ldMemVx x) := of_eq (selected_X 0xF x 0x55) rfl (wf_x x)
theorem ldVxMem (x : Reg) : Statement (.ldVxMem x) := of_eq (selected_X 0xF x 0x65) rfl (wf_x x)

end Sys2Proof.Laws.EncodingRow
end

