-- ==== Sys2Proof/Tests/Slice0.lean ====
section
/-! SUPPORT. The model's own tests: the checks of well-formedness refuse ill-formed terms, words written
out from the encodings decode to their instructions, one step on a small state gives what the
vectors of spec/95_test_vectors.md say, and the hypotheses of the statements can be met. -/

namespace Sys2Proof.Tests

open Sys2Proof.Machine

/-! ## Well-formedness (spec/30_encoding.md R71, R77): each check refuses an ill-formed term -/

theorem test_wf_refuses_register_16 : fieldsWf [⟨11, 8, 16⟩] = false := by decide
theorem test_wf_refuses_byte_256 : fieldsWf [.x 0, ⟨7, 0, 256⟩] = false := by decide
theorem test_wf_refuses_field_past_bit_15 : fieldsWf [⟨16, 12, 0⟩] = false := by decide
theorem test_wf_refuses_overlapping_fields : fieldsWf [.y 1, .nn 0] = false := by decide
theorem test_wf_accepts_drw : (Instr.drw 15 15 15).wf = true := by decide

/-! ## Decoding: words written out from the patterns of R73, every constructor -/

theorem test_decode_flow :
    decodeWord 0b0000000011101110#16 = .ok .ret ∧
    decodeWord 0b0001101010111100#16 = .ok (.jp 0xABC) ∧
    decodeWord 0b0010001000010000#16 = .ok (.call 0x210) ∧
    decodeWord 0b1011001100000000#16 = .ok (.jpV0 0x300) := by decide

theorem test_decode_skip :
    decodeWord 0b0011101001000010#16 = .ok (.seByte 0xA 0x42) ∧
    decodeWord 0b0100101001000010#16 = .ok (.sneByte 0xA 0x42) ∧
    decodeWord 0b0101001000110000#16 = .ok (.seReg 2 3) ∧
    decodeWord 0b1001001000110000#16 = .ok (.sneReg 2 3) := by decide

theorem test_decode_alu :
    decodeWord 0b0110101010111100#16 = .ok (.ldByte 0xA 0xBC) ∧
    decodeWord 0b0111000111111111#16 = .ok (.addByte 1 0xFF) ∧
    decodeWord 0b1000001000110000#16 = .ok (.ldReg 2 3) ∧
    decodeWord 0b1000000100100001#16 = .ok (.orReg 1 2) ∧
    decodeWord 0b1000000100100010#16 = .ok (.andReg 1 2) ∧
    decodeWord 0b1000000100100011#16 = .ok (.xorReg 1 2) ∧
    decodeWord 0b1000000100100100#16 = .ok (.addReg 1 2) ∧
    decodeWord 0b1000000100100101#16 = .ok (.subReg 1 2) ∧
    decodeWord 0b1000000100100110#16 = .ok (.shrReg 1 2) ∧
    decodeWord 0b1000000100100111#16 = .ok (.subnReg 1 2) ∧
    decodeWord 0b1000000100101110#16 = .ok (.shlReg 1 2) ∧
    decodeWord 0b1100001100001111#16 = .ok (.rnd 3 0x0F) := by decide

theorem test_decode_index_memory :
    decodeWord 0b1010001100000000#16 = .ok (.ldI 0x300) ∧
    decodeWord 0b1111001000011110#16 = .ok (.addIVx 2) ∧
    decodeWord 0b1111001000101001#16 = .ok (.ldFVx 2) ∧
    decodeWord 0b1111001000110011#16 = .ok (.ldBVx 2) ∧
    decodeWord 0b1111001001010101#16 = .ok (.ldMemVx 2) ∧
    decodeWord 0b1111001001100101#16 = .ok (.ldVxMem 2) := by decide

theorem test_decode_display :
    decodeWord 0b0000000011100000#16 = .ok .cls ∧
    decodeWord 0b1101101010110101#16 = .ok (.drw 0xA 0xB 5) := by decide

theorem test_decode_keypad_timers :
    decodeWord 0b1110001010011110#16 = .ok (.skp 2) ∧
    decodeWord 0b1110001010100001#16 = .ok (.sknp 2) ∧
    decodeWord 0b1111000100000111#16 = .ok (.ldVxDT 1) ∧
    decodeWord 0b1111001000001010#16 = .ok (.ldVxK 2) ∧
    decodeWord 0b1111000000010101#16 = .ok (.ldDTVx 0) ∧
    decodeWord 0b1111010100011000#16 = .ok (.ldSTVx 5) := by decide

/-- VEC-UNIMP-2, 5, 7, 10, 12, 15 of spec/95_test_vectors.md, and S8. -/
theorem test_decode_unimplemented :
    decodeWord 0x00E1 = .error (.unimplementedOpcode 0x00E1) ∧
    decodeWord 0x5551 = .error (.unimplementedOpcode 0x5551) ∧
    decodeWord 0x8008 = .error (.unimplementedOpcode 0x8008) ∧
    decodeWord 0x9001 = .error (.unimplementedOpcode 0x9001) ∧
    decodeWord 0xE0A0 = .error (.unimplementedOpcode 0xE0A0) ∧
    decodeWord 0xF01F = .error (.unimplementedOpcode 0xF01F) := by decide

theorem test_decode_bytes_high_first : decode [0x6A, 0xBC, 0x00] = .ok (.ldByte 0xA 0xBC, [0x00]) := by
  decide

theorem test_decode_one_byte_is_too_short : decode [0x6A] = .error .tooShort := by decide

theorem test_decodeTableWord : decodeTableWord 16 0x8124 = some (.addReg 1 2) := by decide

/-! ## One step from a small state; the expected values are those of spec/95_test_vectors.md -/

/-- The state a step or an instruction answered. -/
def after (o : Host.Outcome State Fault Refusal) : State :=
  match o with
  | .next t => t
  | .fault _ => State.reset
  | .refused _ => State.reset

/-- One step that runs the word. -/
def run (w : Nat) (s : State) : State := after (step (s.withFetchWord 16 w))

/-- The reset state with some registers set. -/
def regs (rs : List (Reg × Byte)) : State := rs.foldl (fun s p => s.setReg p.1 p.2) State.reset

/-- A state with some bytes at an address. -/
def bytesAt (a : Nat) (bs : List Byte) (s : State) : State :=
  s.setMem (Memory.writeRange s.cfg.resetByte s.mem a bs)

/-- Halted by the fault, with its datum, at the address it was fetched from. -/
abbrev haltedBy (s : State) (code : FaultCode) (info pc : Word) : Prop :=
  s.runState = .halted ∧ s.faultCode = code ∧ s.faultInfo = info ∧ s.pc = pc

/-- VEC-FETCH-1. -/
theorem test_step_fetches_high_byte_first :
    (after (step (bytesAt 0x200 [0x6A, 0xBC] State.reset))).reg 10 = 0xBC := by decide

/-- VEC-FETCH-5. -/
theorem test_step_fetch_needs_both_bytes :
    haltedBy (after (step (State.reset.setPc 0xFFF))) .addressOutOfRange 0xFFF 0xFFF := by decide

/-- VEC-FETCH-7. -/
theorem test_step_from_reset_meets_word_zero :
    haltedBy (after (step State.reset)) .unimplementedOpcode 0x0000 0x200 := by decide

/-- VEC-UNIMP-17. -/
theorem test_step_superchip_word_halts :
    haltedBy (run 0xF075 State.reset) .unimplementedOpcode 0xF075 0x200 := by decide

/-- VEC-FLOW-1. -/
theorem test_jp : (run 0x1ABC State.reset).pc = 0x0ABC := by decide

/-- VEC-FLOW-4. -/
theorem test_call :
    (run 0x2ABC State.reset).pc = 0x0ABC ∧ (run 0x2ABC State.reset).sp = 1 ∧
    (run 0x2ABC State.reset).stack[0] = 0x0202 := by decide

/-- VEC-FLOW-9: a full stack. -/
theorem test_call_overflow :
    haltedBy (run 0x2200 (State.reset.setStack (Vector.replicate 16 0x202) 16)) .stackOverflow 0x10 0x200 := by
  decide

/-- VEC-FLOW-7. -/
theorem test_ret :
    let t := run 0x00EE (State.reset.setStack ((Vector.replicate 16 0x202).set 1 0x456) 2)
    t.pc = 0x0456 ∧ t.sp = 1 := by decide

/-- VEC-FLOW-6. -/
theorem test_ret_underflow : haltedBy (run 0x00EE State.reset) .stackUnderflow 0 0x200 := by decide

/-- VEC-FLOW-12. -/
theorem test_jpV0_is_not_reduced : (run 0xBFFF (regs [(0, 0xFF)])).pc = 0x10FE := by decide

/-- VEC-SKIP-1, VEC-SKIP-2. -/
theorem test_seByte :
    (run 0x3A42 (regs [(10, 0x42)])).pc = 0x204 ∧ (run 0x3A42 (regs [(10, 0x43)])).pc = 0x202 := by
  decide

/-- VEC-SKIP-3, VEC-SKIP-4. -/
theorem test_sneByte :
    (run 0x4A42 (regs [(10, 0x42)])).pc = 0x202 ∧ (run 0x4A42 (regs [(10, 0x43)])).pc = 0x204 := by
  decide

/-- VEC-SKIP-5, VEC-SKIP-6. -/
theorem test_seReg :
    (run 0x5AB0 (regs [(10, 1), (11, 1)])).pc = 0x204 ∧
    (run 0x5AB0 (regs [(10, 1), (11, 2)])).pc = 0x202 := by decide

/-- VEC-SKIP-7, VEC-SKIP-8. -/
theorem test_sneReg :
    (run 0x9AB0 (regs [(10, 1), (11, 1)])).pc = 0x202 ∧
    (run 0x9AB0 (regs [(10, 1), (11, 2)])).pc = 0x204 := by decide

/-- VEC-ALU-1. -/
theorem test_ldByte : (run 0x6C7F State.reset).reg 12 = 0x7F := by decide

/-- VEC-ALU-2: no carry flag. -/
theorem test_addByte_wraps_without_flag :
    (run 0x7001 (regs [(0, 0xFF)])).reg 0 = 0 ∧ (run 0x7001 (regs [(0, 0xFF)])).reg 15 = 0 := by decide

/-- VEC-ALU-4. -/
theorem test_ldReg : (run 0x8120 (regs [(1, 0x0F), (2, 0xF0)])).reg 1 = 0xF0 := by decide

/-- VEC-ALU-9: the flag register is an ordinary destination. -/
theorem test_orReg : (run 0x8F21 (regs [(15, 0x01), (2, 0x80)])).reg 15 = 0x81 := by decide

/-- VEC-ALU-6. -/
theorem test_andReg : (run 0x8122 (regs [(1, 0x3C), (2, 0xF0)])).reg 1 = 0x30 := by decide

/-- VEC-ALU-7. -/
theorem test_xorReg : (run 0x8123 (regs [(1, 0x3C), (2, 0xF0)])).reg 1 = 0xCC := by decide

/-- VEC-ALU-10. -/
theorem test_addReg :
    (run 0x8124 (regs [(1, 0xFF), (2, 0xFF)])).reg 1 = 0xFE ∧
    (run 0x8124 (regs [(1, 0xFF), (2, 0xFF)])).reg 15 = 1 := by decide

/-- VEC-ALU-30: `x = F`, the result stays. -/
theorem test_addReg_x_F : (run 0x8F14 (regs [(15, 0xFF), (1, 0x01)])).reg 15 = 0x00 := by decide

/-- VEC-ALU-12: equal operands, no borrow. -/
theorem test_subReg :
    (run 0x8125 (regs [(1, 0x10), (2, 0x10)])).reg 1 = 0 ∧
    (run 0x8125 (regs [(1, 0x10), (2, 0x10)])).reg 15 = 1 := by decide

/-- VEC-ALU-36: `y = F`, the old flag register is subtracted. -/
theorem test_subReg_y_F :
    (run 0x81F5 (regs [(1, 0x01), (15, 0x03)])).reg 1 = 0xFE ∧
    (run 0x81F5 (regs [(1, 0x01), (15, 0x03)])).reg 15 = 0 := by decide

/-- VEC-ALU-14: shifts `V[y]`. -/
theorem test_shrReg :
    (run 0x8126 (regs [(1, 0xAA), (2, 0x05)])).reg 1 = 0x02 ∧
    (run 0x8126 (regs [(1, 0xAA), (2, 0x05)])).reg 15 = 1 := by decide

/-- VEC-ALU-16. -/
theorem test_subnReg :
    (run 0x8127 (regs [(1, 0x05), (2, 0x03)])).reg 1 = 0xFE ∧
    (run 0x8127 (regs [(1, 0x05), (2, 0x03)])).reg 15 = 0 := by decide

/-- VEC-ALU-43: `x = F`, the result stays. -/
theorem test_shlReg_x_F : (run 0x8F2E (regs [(2, 0xC1)])).reg 15 = 0x82 := by decide

/-- VEC-ALU-18. -/
theorem test_shlReg :
    (run 0x812E (regs [(2, 0xFF)])).reg 1 = 0xFE ∧ (run 0x812E (regs [(2, 0xFF)])).reg 15 = 1 := by
  decide

/-- VEC-ALU-21: a zero mask gives zero whatever the draw is. -/
theorem test_rnd_zero_mask : (run 0xC300 (regs [(3, 0x55)])).reg 3 = 0 :=
  (BitVec.and_zero : Config.freeRand 0 &&& 0#8 = 0#8)

/-- VEC-MEM-1. -/
theorem test_ldI : (run 0xAFFF State.reset).i = 0xFFF := by decide

/-- VEC-MEM-2, VEC-MEM-3: no wrap at 4096, a wrap at 65536. -/
theorem test_addIVx :
    (run 0xF01E ((regs [(0, 1)]).setI 0x0FFF)).i = 0x1000 ∧
    (run 0xF01E ((regs [(0, 1)]).setI 0xFFFF)).i = 0x0000 := by decide

/-- VEC-MEM-5, VEC-MEM-8: not masked to a nibble. -/
theorem test_ldFVx :
    (run 0xF029 (regs [(0, 0x0F)])).i = 0x9B ∧ (run 0xF029 (regs [(0, 0xFF)])).i = 0x54B := by decide

/-- S4. -/
theorem test_ldBVx :
    let t := run 0xF033 ((regs [(0, 0xEA)]).setI 0x300)
    t.readByte 0x300 = 2 ∧ t.readByte 0x301 = 3 ∧ t.readByte 0x302 = 4 := by decide

/-- VEC-MEM-11: the whole access is checked first. -/
theorem test_ldBVx_out_of_range :
    let t := run 0xF033 ((regs [(0, 0xFF)]).setI 0xFFE)
    haltedBy t .addressOutOfRange 0xFFE 0x200 ∧ t.readByte 0xFFE = 0 := by decide

/-- VEC-MEM-17. -/
theorem test_ldMemVx :
    let t := run 0xF255 ((regs [(0, 0x0A), (1, 0x0B), (2, 0x0C), (3, 0x0D)]).setI 0x400)
    t.readByte 0x400 = 0x0A ∧ t.readByte 0x402 = 0x0C ∧ t.readByte 0x403 = 0 ∧ t.i = 0x400 := by decide

/-- VEC-MEM-19: the font is writable, and a byte written back to its reset value leaves no cell. -/
theorem test_ldMemVx_over_the_font :
    (run 0xF055 ((regs []).setI 0x50)).readByte 0x50 = 0 ∧
    (exec (.ldMemVx 0) ((regs [(0, 0xF0)]).setI 0x50) |> after).mem = [] := by decide

/-- VEC-MEM-18: reads the default font. -/
theorem test_ldVxMem :
    let t := run 0xFF65 (State.reset.setI 0x50)
    t.reg 0 = 0xF0 ∧ t.reg 5 = 0x20 ∧ t.reg 14 = 0xF0 ∧ t.reg 15 = 0xF0 := by decide

/-- VEC-MEM-15: no partial load. -/
theorem test_ldVxMem_out_of_range :
    let t := run 0xF165 ((regs [(0, 0x77), (1, 0x88)]).setI 0xFFF)
    haltedBy t .addressOutOfRange 0xFFF 0x200 ∧ t.reg 0 = 0x77 ∧ t.reg 1 = 0x88 := by decide

/-- VEC-DRAW-12. -/
theorem test_cls :
    let t := run 0x00E0 ((regs [(15, 1)]).setFb (Framebuffer.setPixel Framebuffer.clear 31 63 true))
    t.pixel 31 63 = false ∧ t.reg 15 = 1 := by decide

/-- VEC-DRAW-2: the origin wraps and the row continues at column 0. -/
theorem test_drw_wraps :
    let t := run 0xD011 (bytesAt 0x300 [0xFF] ((regs [(0, 0xFF), (1, 0xFF)]).setI 0x300))
    t.pixel 31 63 = true ∧ t.pixel 31 0 = true ∧ t.pixel 31 6 = true ∧ t.pixel 31 7 = false ∧
    t.reg 15 = 0 := by decide

/-- VEC-DRAW-4: the collision of row 0 is kept although row 1 has none. -/
theorem test_drw_collision_is_aggregated :
    let t := run 0xD012 (bytesAt 0x300 [0x80, 0x80]
      ((State.reset.setI 0x300).setFb (Framebuffer.setPixel Framebuffer.clear 0 0 true)))
    t.pixel 0 0 = false ∧ t.pixel 1 0 = true ∧ t.reg 15 = 1 := by decide

/-- VEC-KEY-1, VEC-KEY-4: a value above 15 is never pressed. -/
theorem test_skp :
    (run 0xE09E ((regs [(0, 0x0F)]).setKeys 0x8000)).pc = 0x204 ∧
    (run 0xE09E ((regs [(0, 0x10)]).setKeys 0xFFFF)).pc = 0x202 := by decide

/-- VEC-KEY-2, VEC-KEY-5. -/
theorem test_sknp :
    (run 0xE0A1 ((regs [(0, 0x0F)]).setKeys 0x8000)).pc = 0x202 ∧
    (run 0xE0A1 ((regs [(0, 0x10)]).setKeys 0xFFFF)).pc = 0x204 := by decide

/-- VEC-KEY-6: a held key does not complete the wait. -/
theorem test_ldVxK :
    let t := run 0xF50A (State.reset.setKeys 0x0200)
    t.runState = .waitingForKey ∧ t.waitX = 5 ∧ t.pc = 0x200 ∧ t.reg 5 = 0 := by decide

/-- VEC-KEY-11. -/
theorem test_ldVxDT : (run 0xF107 (State.reset.setDt 0x2A)).reg 1 = 0x2A := by decide

/-- VEC-KEY-12. -/
theorem test_ldDTVx : (run 0xF015 ((regs [(0, 3)]).setDt 0x99)).dt = 3 := by decide

/-- VEC-KEY-13. -/
theorem test_ldSTVx :
    (run 0xF518 (regs [(5, 0x10)])).st = 0x10 ∧ (run 0xF518 (regs [(5, 0x10)])).soundActive = true := by
  decide

/-- Writing a byte and writing its reset value back leaves the memory it was. -/
theorem test_write_back_leaves_no_cell :
    let bg := Config.default.resetByte
    Memory.wf bg [(0x300, 1)] = true ∧
    Memory.write bg (Memory.write bg [(0x300, 1)] 0x50 0) 0x50 0xF0 = [(0x300, 1)] := by decide

/-! ## Host events -/

/-- One step that answers the event. -/
def answer (e : HostEvent) (s : State) : State := after (step { s with events := [e] })

/-- VEC-KEY-8. -/
theorem test_keyDown_completes_wait :
    let t := answer (.keyDown 9) (State.reset.suspend 5)
    t.reg 5 = 9 ∧ t.pc = 0x202 ∧ t.runState = .running ∧ t.keys = 0x0200 := by decide

/-- VEC-KEY-7. -/
theorem test_keyUp :
    let t := answer (.keyUp 9) ((State.reset.suspend 5).setKeys 0x0200)
    t.runState = .waitingForKey ∧ t.keys = 0 := by decide

/-- VEC-TICK-1, VEC-TICK-2. -/
theorem test_tick :
    (answer .tick ((State.reset.setDt 1).setSt 2)).dt = 0 ∧
    (answer .tick ((State.reset.setDt 1).setSt 2)).st = 1 ∧
    (answer .tick (State.reset.setDt 0)).dt = 0 ∧
    (answer .tick ((State.reset.setDt 5).suspend 0)).dt = 5 := by decide

/-- VEC-EVENT-1, VEC-EVENT-2. -/
theorem test_quit :
    haltedBy (answer .quit (State.reset.setPc 0x234)) .none 0 0x234 ∧
    haltedBy (answer .quit (State.reset.halt .unimplementedOpcode 7)) .unimplementedOpcode 7 0x200 := by
  decide

/-- VEC-EVENT-3: a load in Halted changes nothing; and a load of two bytes in Running. -/
theorem test_loadProgram :
    (answer (.loadProgram [0x12, 0x00]) (State.reset.halt .stackUnderflow 0)).mem = [] ∧
    (answer (.loadProgram [0x12, 0x00]) State.reset).mem = [(0x200, 0x12)] := by decide

/-- VEC-EVENT-4: reset erases the program, restores the font, leaves the keypad. -/
theorem test_reset_event :
    let s := ((bytesAt 0x50 [0x00] (bytesAt 0x206 [0x55, 0x51] (regs [(0, 0xFF)]))).setKeys 0x10).halt
      .unimplementedOpcode 0x5551
    let t := answer .reset s
    t.runState = .running ∧ t.faultCode = .none ∧ t.reg 0 = 0 ∧ t.readByte 0x206 = 0 ∧
    t.readByte 0x50 = 0xF0 ∧ t.keys = 0x10 := by decide

/-- R214. -/
theorem test_serialise :
    Ports.serialise ⟨false, true, 0x0002, 0x8001, true, true⟩ =
      [.quit, .keyUp 1, .keyDown 0, .keyDown 15, .cycle, .tick] := by decide

/-! ## Witnesses: the hypotheses of the statements can be met, each clause at a boundary of its range.
`test_wit_<Name>…` is about Obligations.<Name>. -/

theorem test_wit_EncodeOfDecodeIsTheWord : decodeWord 0xFF65 = .ok (.ldVxMem 15) := by decide

theorem test_wit_DecodeReturnsTheMatchingRow_some :
    ∃ r ∈ opcodeTable, r.selectedBy 0x800E = true := by decide

theorem test_wit_DecodeReturnsTheMatchingRow_none :
    ∀ r ∈ opcodeTable, r.selectedBy 0x800F = false := by decide

/-- The last address an instruction can be fetched from. -/
theorem test_wit_StepRunsTheDecodedInstruction :
    let s := bytesAt 0xFFE [0xA1, 0x23] (State.reset.setPc 0xFFE)
    s.nextEvent = .cycle ∧ s.runState = .running ∧ s.pc.toNat + 2 ≤ 4096 ∧
      decode [s.readByte s.pc.toNat, s.readByte (s.pc.toNat + 1)] = .ok (.ldI 0x123, []) := by decide

theorem test_wit_FetchIsBigEndianAndRangeChecked :
    (State.reset.setPc 0xFFE).pc.toNat + 2 ≤ 4096 ∧
    4096 < (State.reset.setPc 0xFFF).pc.toNat + 2 ∧
    (State.reset.setPc 0xFFF).nextEvent = .cycle ∧ (State.reset.setPc 0xFFF).runState = .running := by
  decide

theorem test_wit_UnimplementedWordHalts :
    State.reset.nextEvent = .cycle ∧ State.reset.runState = .running ∧ State.reset.fetch = .ok 0 ∧
      ∀ r ∈ opcodeTable, r.selectedBy 0 = false :=
  ⟨rfl, rfl, rfl, by decide⟩

theorem test_wit_CycleOutsideRunningChangesNothing :
    ((State.reset.suspend 5).nextEvent = .cycle ∧ (State.reset.suspend 5).runState = .waitingForKey) ∧
    ((State.reset.halt .none 0).nextEvent = .cycle ∧ (State.reset.halt .none 0).runState = .halted) := by
  decide

theorem test_wit_FaultDiscardsTheWholeInstruction :
    State.reset.runState = .running ∧ (∃ t, exec .cls State.reset = .next t ∧ t.runState = .running) ∧
    ∃ t, exec .ret State.reset = .next t ∧ t.runState = .halted :=
  ⟨rfl, ⟨_, rfl, rfl⟩, ⟨_, rfl, rfl⟩⟩

theorem test_wit_InvalidRegisterIndexIsNeverRecorded :
    State.reset.faultCode ≠ .invalidRegisterIndex ∧
      ∃ t, step State.reset = .next t ∧ t.faultCode = .unimplementedOpcode :=
  ⟨by decide, _, rfl, by decide⟩

/-- Both jumps can stand still; `Bnnn` at 0x10FE, the largest target. -/
theorem test_wit_OnlyAJumpToItselfStandsStill :
    (State.reset.runState = .running ∧ (0x200 : Addr12).toNat = State.reset.pc.toNat) ∧
    ((regs [(0, 0xFF)]).reg 0).toNat + (0xFFF : Addr12).toNat =
      ((regs [(0, 0xFF)]).setPc 0x10FE).pc.toNat := by decide

theorem test_wit_HaltedIsLeftOnlyByReset :
    (State.reset.halt .stackOverflow 16).runState = .halted ∧ HostEvent.keyDown 15 ≠ .reset := by decide

theorem test_wit_RunStateTransitions_key :
    ∃ t, (State.reset.suspend 15).deliver (.keyDown 0) = .next t ∧ t.runState = .running := ⟨_, rfl, rfl⟩

theorem test_wit_RunStateTransitions_cycle :
    (∃ t, (State.reset.suspend 15).deliver .cycle = .next t ∧ t.runState = .waitingForKey) ∧
    ∃ t, (bytesAt 0x200 [0xFF, 0x0A] State.reset).deliver .cycle = .next t ∧
      t.runState = .waitingForKey :=
  ⟨⟨_, rfl, rfl⟩, ⟨_, rfl, by decide⟩⟩

/-- A Cycle that ends Halted: by the fetch, by the word, by the instruction. -/
theorem test_wit_RunStateTransitions_halted :
    (∃ t, (State.reset.setPc 0xFFF).deliver .cycle = .next t ∧ t.runState = .halted) ∧
    (∃ t, State.reset.deliver .cycle = .next t ∧ t.runState = .halted) ∧
    ∃ t, (bytesAt 0x200 [0x00, 0xEE] State.reset).deliver .cycle = .next t ∧ t.runState = .halted :=
  ⟨⟨_, rfl, by decide⟩, ⟨_, rfl, by decide⟩, ⟨_, rfl, by decide⟩⟩

theorem test_wit_RunStateTransitions_others :
    (∃ t, State.reset.deliver .tick = .next t) ∧ (∃ t, State.reset.deliver (.keyUp 3) = .next t) ∧
    (∃ t, State.reset.deliver .quit = .next t) ∧ (∃ t, State.reset.deliver .reset = .next t) ∧
    ∃ t, State.reset.deliver (.loadProgram [0x12]) = .next t :=
  ⟨⟨_, rfl⟩, ⟨_, rfl⟩, ⟨_, rfl⟩, ⟨_, rfl⟩, ⟨_, rfl⟩⟩

theorem test_wit_QuitHaltsWithoutAFault :
    (State.reset.suspend 0).runState ≠ .halted ∧ (State.reset.halt .none 0).runState = .halted := by
  decide

theorem test_wit_ACleanEndComesOnlyByQuit :
    State.reset.runState ≠ .halted ∧
      ∃ t, step { State.reset with events := [.quit] } = .next t ∧ t.cleanEnd :=
  ⟨by decide, _, rfl, rfl, rfl⟩

theorem test_wit_TickCountsBothTimersDown :
    (State.reset.setSt 0xFF).runState = .running ∧ (State.reset.suspend 0).runState ≠ .running := by decide

theorem test_wit_KeyDownSetsOneKey :
    State.reset.runState ≠ .waitingForKey ∧ (State.reset.halt .none 0).runState ≠ .waitingForKey := by
  decide

/-- 3584 bytes are the most that fit, one more does not. -/
theorem test_wit_LoadProgramWritesFrom0x200 :
    State.reset.memWf = true ∧ State.reset.runState = .running ∧
    0x200 + (List.replicate 3584 (0 : Byte)).length ≤ 4096 ∧
    4096 < 0x200 + (List.replicate 3585 (0 : Byte)).length ∧
    (State.reset.suspend 0).runState ≠ .running := by
  refine ⟨rfl, rfl, ?_, ?_, by decide⟩ <;> simp only [List.length_replicate] <;> decide

/-- A depth of 12: the twelfth call is the last that fits. -/
theorem test_wit_CallPushesTheReturnAddress :
    let c : Config := ⟨0, Config.defaultFont⟩
    ((State.resetWith c).setStack (Vector.replicate 16 0x202) 11).sp.val < c.stackDepth ∧
    ((State.resetWith c).setStack (Vector.replicate 16 0x202) 12).sp.val = c.stackDepth ∧
    (State.reset.setStack (Vector.replicate 16 0x202) 15).sp.val < State.reset.cfg.stackDepth ∧
    (State.reset.setStack (Vector.replicate 16 0x202) 16).sp.val = State.reset.cfg.stackDepth := by decide

theorem test_wit_ReturnPopsTheNewestAddress :
    0 < (State.reset.setStack (Vector.replicate 16 0x202) 16).sp.val ∧ State.reset.sp.val = 0 := by decide

/-- The sixteenth call. -/
theorem test_wit_ReturnAfterCallComesBack :
    let s := State.reset.setStack (Vector.replicate 16 0x202) 15
    s.sp.val < s.cfg.stackDepth ∧ ∃ t u, exec (.call 0x300) s = .next t ∧
      u.stack = t.stack ∧ u.sp = t.sp ∧ u ≠ t :=
  ⟨by decide, _, (after (exec (.call 0x300) (State.reset.setStack (Vector.replicate 16 0x202) 15))).setDt 9,
    rfl, rfl, rfl, by decide⟩

theorem test_wit_RegisterSkipsAddTwoOrFour :
    ((0x5551 : Word).toNat / 4096 = 5 ∧ (0x5551 : Word).toNat % 16 ≠ 0) ∧
    ((0x900F : Word).toNat / 4096 = 9 ∧ (0x900F : Word).toNat % 16 ≠ 0) := by decide

theorem test_wit_KeySkipsTestOneKey :
    (∃ k : Key, ((regs [(0, 15)]).reg 0).toNat = k.val ∧
      ((regs [(0, 15)]).setKeys 0x8000).keyIsDown k = true) ∧
    ¬ ∃ k : Key, ((regs [(0, 16)]).reg 0).toNat = k.val ∧
      ((regs [(0, 16)]).setKeys 0xFFFF).keyIsDown k = true := by decide

/-- The flag clause of the ALU statements has the side condition `x ≠ 15`. -/
theorem test_wit_AluFlagClauses : (14 : Reg) ≠ 15 := by decide

theorem test_wit_DecimalDigitsAreStoredAtI :
    State.reset.memWf = true ∧ (State.reset.setI 0xFFD).i.toNat + 3 ≤ 4096 ∧
    4096 < (State.reset.setI 0xFFE).i.toNat + 3 := by decide

theorem test_wit_RegistersAreStoredInclusively :
    State.reset.memWf = true ∧ (State.reset.setI 0xFF0).i.toNat + (15 : Reg).val + 1 ≤ 4096 ∧
    4096 < (State.reset.setI 0xFF1).i.toNat + (15 : Reg).val + 1 := by decide

theorem test_wit_RegistersAreLoadedInclusively :
    (State.reset.setI 0xFFF).i.toNat + (0 : Reg).val + 1 ≤ 4096 ∧
    4096 < (State.reset.setI 0x1000).i.toNat + (0 : Reg).val + 1 := by decide

theorem test_wit_StoreThenLoadRestoresRegisters :
    let s := (regs [(0, 7), (1, 8)]).setI 0xFFE
    s.memWf = true ∧ s.i.toNat + (1 : Reg).val + 1 ≤ 4096 ∧
      ∃ t u : State, exec (.ldMemVx 1) s = .next t ∧ u.mem = t.mem ∧ u.cfg = t.cfg ∧ u.i = s.i ∧
        u.reg 0 ≠ s.reg 0 :=
  ⟨by decide, by decide, _,
    (after (exec (.ldMemVx 1) ((regs [(0, 7), (1, 8)]).setI 0xFFE))).setReg 0 9,
    rfl, rfl, rfl, by decide, by decide⟩

/-- P5 of spec/95_test_vectors.md has the first of these: a store over both bytes of the next word, over
its high byte at the end of the store, over its low byte alone; and the last word of memory. -/
theorem test_wit_StoredBytesAreFetchedNext :
    ((regs []).setI 0x202).memWf = true ∧ ((regs []).setI 0x202).pc.toNat + 4 ≤ 4096 ∧
    ((regs []).setI 0x202).i.toNat + (1 : Reg).val + 1 ≤ 4096 ∧
    ((regs []).setI 0x200).i.toNat + 3 ≤ 4096 ∧ ((regs []).setI 0x203).i.toNat + 3 ≤ 4096 ∧
    (State.reset.setPc 0xFFC).pc.toNat + 4 ≤ 4096 ∧ (State.reset.setI 0xFFD).i.toNat + 3 ≤ 4096 := by
  decide

/-- `Fx33` with its last digit on the high byte of the next word, and with its first on the low byte. -/
theorem test_store_over_one_byte_is_fetched :
    let s := bytesAt 0x202 [0x6A, 0xBC] (regs [(0, 0xEA)])
    (after (exec (.ldBVx 0) (s.setI 0x200))).fetch = .ok 0x04BC ∧
    (after (exec (.ldBVx 0) (s.setI 0x203))).fetch = .ok 0x6A02 :=
  ⟨rfl, rfl⟩

/-- Fifteen rows ending at the last byte; one past it; no row with `I` outside the memory. -/
theorem test_wit_DrawFlipsTheCoveredPixels :
    (State.reset.setI 0xFF1).i.toNat + (15 : Rows).val ≤ 4096 ∧
    ((15 : Rows).val ≠ 0 ∧ 4096 < (State.reset.setI 0xFF2).i.toNat + (15 : Rows).val) ∧
    ((0 : Rows).val = 0 ∧ 4096 < (State.reset.setI 0xFFFF).i.toNat) := by decide

/-- The pixel clause of the draw: one pixel covered and on, and a draw that covers none. -/
theorem test_wit_DrawFlipsTheCoveredPixels_covered :
    (∃ r c, Covered (State.reset.setI 0x50) 0 0 1 r c ∧
      ((State.reset.setI 0x50).setFb (Framebuffer.setPixel Framebuffer.clear 0 0 true)).pixel r c = true) ∧
    ¬ ∃ r c, Covered State.reset 0 0 0 r c ∧ State.reset.pixel r c = true :=
  ⟨⟨0, 0, ⟨0, 0, by decide, by decide, by decide, by decide, by decide⟩, by decide⟩,
    fun ⟨_, _, ⟨_, _, h, _⟩, _⟩ => absurd h (Nat.not_lt_zero _)⟩

theorem test_wit_DrawingTwiceRestoresTheScreen :
    (1 : Reg) ≠ 15 ∧ (State.reset.setI 0x50).i.toNat + (1 : Rows).val ≤ 4096 ∧
      ∃ t u, exec (.drw 1 2 1) (State.reset.setI 0x50) = .next t ∧ exec (.drw 1 2 1) t = .next u :=
  ⟨by decide, by decide, _, _, rfl, rfl⟩

theorem test_wit_PixelsChangedAreTheSpriteBits :
    (State.reset.setI 0x50).i.toNat + (5 : Rows).val ≤ 4096 ∧
      ∃ t, exec (.drw 1 2 5) (State.reset.setI 0x50) = .next t := ⟨by decide, _, rfl⟩

theorem test_wit_SoundTimerIsSetByFx18AndReadByNone :
    ∃ t, exec (.ldVxDT 1) (State.reset.setSt 7) = .next t ∧ ∀ x, Instr.ldVxDT 1 ≠ .ldSTVx x :=
  ⟨_, rfl, fun _ h => Instr.noConfusion h⟩

theorem test_wit_OnlyStoresChangeMemory :
    State.reset.memWf = true ∧ ∃ t, exec (.ldMemVx 15) ((regs [(15, 1)]).setI 0x300) = .next t ∧
      t.readByte 0x30F ≠ ((regs [(15, 1)]).setI 0x300).readByte 0x30F :=
  ⟨rfl, _, rfl, by decide⟩

/-- One instruction for each clause, that changes the part the clause speaks of. -/
theorem test_wit_EveryPartHasItsWriters_registers :
    (after (exec (.ldVxMem 15) (State.reset.setI 0x50))).reg 14 ≠ State.reset.reg 14 ∧
    (after (exec (.addReg 14 0) (regs [(14, 0xFF), (0, 1)]))).reg 15 ≠ (regs [(14, 0xFF), (0, 1)]).reg 15 ∧
    (after (exec (.ldI 1) State.reset)).i ≠ State.reset.i ∧
    (after (exec (.call 1) State.reset)).sp ≠ State.reset.sp ∧
    (after (exec (.ldDTVx 0) (regs [(0, 1)]))).dt ≠ (regs [(0, 1)]).dt ∧
    (after (exec (.ldSTVx 0) (regs [(0, 1)]))).st ≠ (regs [(0, 1)]).st := by decide

theorem test_wit_EveryPartHasItsWriters_others :
    (after (exec (.ldMemVx 0) (State.reset.setI 0x50))).mem ≠ State.reset.mem ∧
    (after (exec (.drw 0 0 1) (State.reset.setI 0x50))).pixel 0 0 ≠ State.reset.pixel 0 0 ∧
    (after (exec (.ldVxK 5) State.reset)).runState ≠ State.reset.runState ∧
    (after (exec (.ldVxK 5) State.reset)).waitX ≠ State.reset.waitX ∧
    (after (exec .ret State.reset)).faultCode ≠ State.reset.faultCode ∧
    (after (exec (.rnd 0 1) State.reset)).draws ≠ State.reset.draws := by decide

theorem test_wit_FlagsAreZeroOrOne :
    (Instr.subReg 0 15).writesFlag ∧ (Instr.subReg 0 15).dest ≠ some 15 ∧
      (regs [(15, 9)]).runState = .running ∧
      ∃ t, exec (.subReg 0 15) (regs [(15, 9)]) = .next t ∧ t.runState ≠ .halted :=
  ⟨trivial, by decide, rfl, _, rfl, by decide⟩

theorem test_wit_OnlyKeySkipsReadTheKeypad :
    (∀ x, Instr.ldVxK 3 ≠ .skp x ∧ Instr.ldVxK 3 ≠ .sknp x) ∧
      ∃ t, exec (.ldVxK 3) State.reset = .next t :=
  ⟨fun _ => ⟨fun h => Instr.noConfusion h, fun h => Instr.noConfusion h⟩, _, rfl⟩

/-- The invariant is met by a state in a key wait, the state its last clause speaks of. -/
theorem test_wit_EveryStepKeepsTheInvariant :
    let s := { bytesAt 0x200 [0xF5, 0x0A] State.reset with waitX := 5, runState := .waitingForKey }
    s.Inv ∧ ∃ t, step s = .next t :=
  ⟨⟨by decide, by decide, by decide, by decide, by decide, by decide, fun _ => ⟨0xF50A, rfl, by decide⟩⟩,
    _, rfl⟩

end Sys2Proof.Tests
end

section
/-! The outputs of spec/00_scope.md R9: what `snapshot` and `soundActive` read of the state, and the
obligation that puts them together. -/

namespace Sys2Proof.Machine

section Outputs
variable (s : State)

@[simp] theorem State.length_snapshot : s.snapshot.length = 32 := by
  simp [State.snapshot]

theorem State.length_of_mem_snapshot {row : List Bool} (h : row ∈ s.snapshot) :
    row.length = 64 := by
  obtain ⟨v, -, rfl⟩ := List.mem_map.mp h
  exact v.length_toList

/-- Row `r` of the snapshot is row `r` of the grid (R170). -/
theorem State.snapshot_getElem? (r : Fin 32) : s.snapshot[r.val]? = some s.fb[r].toList := by
  simp [State.snapshot]

theorem State.snapshot_pixel (r : Fin 32) (c : Fin 64) :
    (s.snapshot[r.val]?).bind (fun row => row[c.val]?) = some (s.pixel r c) := by
  rw [s.snapshot_getElem? r, Option.bind_some]
  simp [State.pixel, Framebuffer.pixel]

theorem State.soundActive_iff : s.soundActive = true ↔ s.st ≠ 0 := bne_iff_ne

theorem State.soundActive_iff_toNat : s.soundActive = true ↔ s.st.toNat ≠ 0 :=
  s.soundActive_iff.trans BitVec.toNat_ne

end Outputs

/-- Settles O26: the shape and the elements of the snapshot from `State.snapshot`, the sound output
from `State.soundActive`. -/
theorem outputsShowTheState : Obligations.OutputsShowTheState := fun s =>
  ⟨s.length_snapshot, fun _ => s.length_of_mem_snapshot, s.snapshot_pixel, s.soundActive_iff_toNat⟩

end Sys2Proof.Machine
end

section
/-! What an instruction can do: one inversion lemma for `exec`. Every instruction ends in one of the
shapes of `Effect`; what holds of the machine's instructions in general is read off the shapes. -/

namespace Sys2Proof.Machine

/-- The failures an instruction can raise (spec/60_exceptions.md R200): an access outside the memory, a
full or an empty call stack. -/
def Raise.FromInstr (e : Raise) : Prop :=
  e.code = .addressOutOfRange ∨ e.code = .stackOverflow ∨ e.code = .stackUnderflow

theorem Raise.FromInstr.code_ne_none {e : Raise} (h : e.FromInstr) : e.code ≠ .none := by
  obtain h | h | h := h <;> simp [h]

/-- The compare-and-skip and the key-skip instructions (spec/42_skip.md, R183, R184). -/
def isSkip : Instr → Bool
  | .seByte _ _ | .sneByte _ _ | .seReg _ _ | .sneReg _ _ | .skp _ | .sknp _ => true
  | _ => false

/-- The shapes of what instruction `i` can do to state `s`, by the operations that build the next state.
The values computed and the exact condition of a fault are left open: `exec_effect` says that every
execution has one of these shapes. -/
inductive Effect (s : State) : Instr → State → Prop
  /-- The fault entry: the writes are discarded (R97, R204). -/
  | fault {i e} (he : Raise.FromInstr e) : Effect s i (s.takeFault e)
  | jump (nnn) : Effect s (.jp nnn) (s.setPc (addrImm nnn))
  | jumpV0 (nnn) : Effect s (.jpV0 nnn) (s.setPc (indexedTarget (s.reg 0) nnn))
  | skip {i} (hi : isSkip i = true) (c : Bool) : Effect s i (s.skipIf c)
  | result {i : Instr} {x} (hx : i.dest = some x) (b : Byte) : Effect s i (s.setReg x b).advance
  | flagResult {i : Instr} {x} (hf : i.writesFlag) (hx : i.dest = some x) (c : Bool) (b : Byte) :
    Effect s i (s.setFlagThenReg c x b).advance
  | random (x nn) (rand : Byte) : Effect s (.rnd x nn) (s.withRandom rand x nn)
  | index {i} (hi : ∃ x nnn, i = .ldI nnn ∨ i = .addIVx x ∨ i = .ldFVx x) (w : Word) :
    Effect s i (s.setI w).advance
  | delayTimer (x) (b : Byte) : Effect s (.ldDTVx x) (s.setDt b).advance
  | soundTimer (x) (b : Byte) : Effect s (.ldSTVx x) (s.setSt b).advance
  | store {i} {bytes : List Byte} (hi : ∃ x, i = .ldBVx x ∨ i = .ldMemVx x)
    (hfit : s.i.toNat + bytes.length ≤ 4096) :
    Effect s i (s.setMem (Memory.writeRange s.cfg.resetByte s.mem s.i.toNat bytes)).advance
  | load {x} {bytes : List Byte} (hlen : bytes.length = x.val + 1) :
    Effect s (.ldVxMem x) (s.setRegs (writeRegs s.v 0 bytes)).advance
  | clear : Effect s .cls (s.setFb Framebuffer.clear).advance
  | draw (x y n) (fb : Framebuffer) (c : Bool) : Effect s (.drw x y n) ((s.setFb fb).setFlag c).advance
  | call (nnn) (hsp : s.sp.val < s.cfg.stackDepth) : Effect s (.call nnn)
    ((s.setStack (s.stack.setIfInBounds s.sp.val (s.pc + 2)) (s.sp + 1)).setPc (addrImm nnn))
  | ret (hsp : s.sp ≠ 0) : Effect s .ret ((s.setStack s.stack (s.sp - 1)).setPc s.top)
  | wait (x) : Effect s (.ldVxK x) (s.suspend x)

variable {s t : State} {i : Instr}

theorem fromInstr_outOfRange (a : Word) : (outOfRange a).FromInstr := .inl rfl

/-- A store at `I` either fits and is carried out, or faults. -/
theorem effect_of_storeAtI {bytes : List Byte} (hi : ∃ x, i = .ldBVx x ∨ i = .ldMemVx x)
    (h : s.storeAtI bytes = .next t) : Effect s i t := by
  by_cases hfit : s.i.toNat + bytes.length ≤ 4096
  · simp only [State.storeAtI, State.memWrite_ok hfit] at h
    cases h
    exact .store hi hfit
  · rw [State.storeAtI_error hfit] at h
    cases h
    exact .fault (fromInstr_outOfRange _)

/-- A load either fits and is carried out, or faults. -/
theorem effect_of_execLdVxMem {x : Reg} (h : execLdVxMem x s = .next t) :
    Effect s (.ldVxMem x) t := by
  by_cases hfit : s.i.toNat + (x.val + 1) ≤ 4096
  · simp only [execLdVxMem, State.memRead_ok hfit] at h
    cases h
    exact .load (Memory.length_readRange ..)
  · simp only [execLdVxMem, State.memRead_error hfit] at h
    cases h
    exact .fault (fromInstr_outOfRange _)

/-- The one failure of a read (R52). -/
theorem State.raise_of_memRead {a : Word} {n : Nat} {e : Raise} (h : s.memRead a n = .error e) :
    e = outOfRange a := by
  unfold State.memRead at h
  split at h <;> cases h
  rfl

theorem State.raise_of_spriteRows {n : Rows} {e : Raise} (h : s.spriteRows n = .error e) :
    e = outOfRange s.i := by
  unfold State.spriteRows at h
  split at h
  · cases h
  · exact State.raise_of_memRead h

theorem effect_of_execDrw {x y : Reg} {n : Rows} (h : execDrw x y n s = .next t) :
    Effect s (.drw x y n) t := by
  unfold execDrw at h
  split at h
  · cases h
    exact .draw ..
  · next e he =>
    cases h
    exact .fault (State.raise_of_spriteRows he ▸ fromInstr_outOfRange _)

theorem effect_of_execCall {nnn : Addr12} (h : execCall nnn s = .next t) :
    Effect s (.call nnn) t := by
  unfold execCall at h
  split at h
  · next u hu =>
    obtain ⟨hsp, rfl⟩ := State.push_spec hu
    cases h
    exact .call nnn hsp
  · next e he =>
    obtain ⟨-, rfl⟩ := State.push_error he
    cases h
    exact .fault (.inr (.inl rfl))

theorem effect_of_execRet (h : execRet s = .next t) : Effect s .ret t := by
  unfold execRet at h
  split at h
  · next w u hu =>
    obtain ⟨hsp, rfl, rfl⟩ := State.pop_spec hu
    cases h
    exact .ret hsp
  · next e he =>
    obtain ⟨-, rfl⟩ := State.pop_error he
    cases h
    exact .fault (.inr (.inr rfl))

/-- Everything an instruction can do. -/
theorem exec_effect (h : exec i s = .next t) : Effect s i t := by
  cases i with
  | cls => cases h; exact .clear
  | ret => exact effect_of_execRet h
  | jp nnn => cases h; exact .jump nnn
  | call nnn => exact effect_of_execCall h
  | jpV0 nnn => cases h; exact .jumpV0 nnn
  | seByte | sneByte | seReg | sneReg | skp | sknp => cases h; exact .skip rfl _
  | ldByte | addByte | ldReg | orReg | andReg | xorReg | ldVxDT => cases h; exact .result rfl _
  | addReg | subReg | shrReg | subnReg | shlReg => cases h; exact .flagResult (by trivial) rfl _ _
  | rnd x nn => cases h; exact .random x nn _
  | ldI nnn => cases h; exact .index ⟨0, nnn, .inl rfl⟩ _
  | addIVx x => cases h; exact .index ⟨x, 0, .inr (.inl rfl)⟩ _
  | ldFVx x => cases h; exact .index ⟨x, 0, .inr (.inr rfl)⟩ _
  | drw x y n => exact effect_of_execDrw h
  | ldVxK x => cases h; exact .wait x
  | ldDTVx x => cases h; exact .delayTimer x _
  | ldSTVx x => cases h; exact .soundTimer x _
  | ldBVx x => exact effect_of_storeAtI ⟨x, .inl rfl⟩ h
  | ldMemVx x => exact effect_of_storeAtI ⟨x, .inr rfl⟩ h
  | ldVxMem x => exact effect_of_execLdVxMem h

end Sys2Proof.Machine
end

section
/-! The invariant of reachable states (`State.Inv`): it holds at reset, and every host event keeps it. -/

namespace Sys2Proof.Machine

variable {s t : State} {i : Instr}

/-! ### Bounds on `PC`, `SP` and the return addresses (spec/10_state.md R26, R30) -/

theorem stackDepth_le (c : Config) : c.stackDepth ≤ 16 := by
  have := c.depthAbove12.isLt
  unfold Config.stackDepth
  omega

theorem toNat_addrImm_lt (nnn : Addr12) : (addrImm nnn).toNat < 4096 := by
  simp only [addrImm, BitVec.toNat_setWidth]
  omega

/-- `255 + 4095` is the largest target of `Bnnn` (R26, R113). -/
theorem toNat_indexedTarget_le (b : Byte) (nnn : Addr12) : (indexedTarget b nnn).toNat ≤ 0x10FE := by
  simp only [indexedTarget, byteWord, addrImm, BitVec.toNat_add, BitVec.toNat_setWidth]
  omega

theorem toNat_add_two {w : Word} (h : w.toNat + 2 ≤ 4096) : (w + 2).toNat = w.toNat + 2 := by
  bv_omega

/-- A fetch that succeeds is inside the memory (R93). -/
theorem State.pc_le_of_fetch {op : Word} (h : s.fetch = .ok op) : s.pc.toNat + 2 ≤ 4096 := by
  by_contra hpc
  rw [State.fetch_error hpc] at h
  cases h

theorem State.raise_of_fetch {e : Raise} (h : s.fetch = .error e) : e = outOfRange s.pc := by
  by_cases hpc : s.pc.toNat + 2 ≤ 4096
  · rw [State.fetch_ok hpc] at h
    cases h
  · rw [State.fetch_error hpc] at h
    cases h
    rfl

/-- From a fetched instruction the skip lands at most four bytes on. -/
theorem State.pc_skipIf_le (hpc : s.pc.toNat + 2 ≤ 4096) (c : Bool) :
    (s.skipIf c).pc.toNat ≤ 0x10FE := by
  cases c <;> simp [BitVec.toNat_add] <;> omega

/-- The newest return address is one of those held. -/
theorem State.top_le (hsp : s.sp ≠ 0)
    (hcells : ∀ k : Fin 16, k.val < s.sp.val → (s.stack[k]).toNat ≤ 0x1000) : s.top.toNat ≤ 0x1000 :=
  have hpos : 0 < s.sp.val := Nat.pos_of_ne_zero (Fin.val_ne_zero_iff.mpr hsp)
  hcells ⟨s.sp.val - 1, by omega⟩ (by simp; omega)

theorem val_sp_add_one (h : s.sp.val < s.cfg.stackDepth) : (s.sp + 1).val = s.sp.val + 1 := by
  have := stackDepth_le s.cfg
  exact Fin.val_add_one_of_lt (Fin.lt_def.mpr (by simp; omega))

theorem val_sp_sub_one_le (h : s.sp ≠ 0) : (s.sp - 1).val ≤ s.sp.val := by
  rw [Fin.val_sub_one_of_ne_zero h]
  omega

/-! ### An instruction keeps each clause of the invariant -/

theorem Effect.memWf (h : Effect s i t) (hwf : s.memWf = true) : t.memWf = true := by
  cases h with
  | store hi hfit => exact Memory.wf_writeRange hwf _ _ hfit
  | _ => exact hwf

theorem Effect.sp_le (h : Effect s i t) (hle : s.sp.val ≤ s.cfg.stackDepth) :
    t.sp.val ≤ t.cfg.stackDepth := by
  cases h with
  | call nnn hsp => exact (val_sp_add_one hsp).trans_le hsp
  | ret hsp => exact (val_sp_sub_one_le hsp).trans hle
  | _ => exact hle

theorem Effect.pc_le (h : Effect s i t) (hpc : s.pc.toNat + 2 ≤ 4096)
    (hcells : ∀ k : Fin 16, k.val < s.sp.val → (s.stack[k]).toNat ≤ 0x1000) :
    t.pc.toNat ≤ 0x10FE := by
  have hstay : s.pc.toNat ≤ 0x10FE := by omega
  have hnext : (s.pc + 2).toNat ≤ 0x10FE := by rw [toNat_add_two hpc]; omega
  cases h with
  | fault => exact hstay
  | wait => exact hstay
  | jump nnn => exact (toNat_addrImm_lt nnn).le.trans (by decide)
  | call nnn => exact (toNat_addrImm_lt nnn).le.trans (by decide)
  | jumpV0 nnn => exact toNat_indexedTarget_le _ nnn
  | skip _ c => exact State.pc_skipIf_le hpc c
  | ret hsp => exact (State.top_le hsp hcells).trans (by decide)
  | _ => exact hnext

/-- The cell a call writes holds `PC + 2`, at most 0x1000 (R112); the others are as they were. -/
theorem Effect.cells_le (h : Effect s i t) (hpc : s.pc.toNat + 2 ≤ 4096)
    (hcells : ∀ k : Fin 16, k.val < s.sp.val → (s.stack[k]).toNat ≤ 0x1000) :
    ∀ k : Fin 16, k.val < t.sp.val → (t.stack[k]).toNat ≤ 0x1000 := by
  intro k hk
  cases h with
  | call nnn hsp =>
    simp only [State.setPc_sp, State.setStack_sp, val_sp_add_one hsp] at hk
    simp only [State.setPc_stack, State.setStack_stack, Fin.getElem_fin,
      Vector.getElem_setIfInBounds]
    split
    · rw [toNat_add_two hpc]; omega
    · exact hcells k (by omega)
  | ret hsp => exact hcells k (hk.trans_le (val_sp_sub_one_le hsp))
  | _ => exact hcells k hk

theorem State.Inv.faultCode_eq_none (hinv : s.Inv) (hrun : s.runState ≠ .halted) :
    s.faultCode = .none :=
  by_contra fun hf => hrun (hinv.faultHalted hf)

/-- The instruction fetched and decoded in Running keeps the invariant. -/
theorem Effect.inv {op : Word} (h : Effect s i t) (hinv : s.Inv) (hrun : s.runState = .running)
    (hfetch : s.fetch = .ok op) (hdec : decodeWord op = .ok i) : t.Inv where
  memWf := h.memWf hinv.memWf
  spLe := h.sp_le hinv.spLe
  pcLe := h.pc_le (State.pc_le_of_fetch hfetch) hinv.cellsLe
  cellsLe := h.cells_le (State.pc_le_of_fetch hfetch) hinv.cellsLe
  faultHalted := by
    cases h with
    | fault => exact fun _ => rfl
    | _ => exact fun hf => absurd (hinv.faultCode_eq_none (by simp [hrun])) hf
  noFaultNoInfo := by
    cases h with
    | fault he => exact fun hf => absurd hf he.code_ne_none
    | _ => exact hinv.noFaultNoInfo
  waiting := by
    cases h with
    | wait x => exact fun _ => ⟨op, hfetch, hdec⟩
    | fault => exact nofun
    | _ => exact fun hw => nomatch hrun.symm.trans hw

/-! ### Each host event keeps the invariant -/

theorem State.inv_resetWith (c : Config) : (State.resetWith c).Inv where
  memWf := Memory.wf_nil
  spLe := Nat.zero_le _
  pcLe := by simp [State.resetWith]
  cellsLe := nofun
  faultHalted := fun hf => absurd rfl hf
  noFaultNoInfo := fun _ => rfl
  waiting := nofun

theorem State.Inv.dropEvent (h : s.Inv) : s.dropEvent.Inv := { h with }

theorem State.Inv.setKeys (h : s.Inv) (ks : BitVec 16) : (s.setKeys ks).Inv := { h with }

/-- In Running nothing waits for what stands in memory. -/
theorem State.Inv.setMem (h : s.Inv) (hrun : s.runState = .running) {m : Memory}
    (hwf : Memory.wf s.cfg.resetByte m = true) : (s.setMem m).Inv :=
  { h with memWf := hwf, waiting := fun hw => nomatch hrun.symm.trans hw }

theorem State.inv_restart (s : State) : s.restart.Inv := { State.inv_resetWith s.cfg with }

/-- Halting keeps the invariant, when a halt without a fault has no datum (R201). -/
theorem State.Inv.halt (h : s.Inv) {code : FaultCode} {info : Word} (hinfo : code = .none → info = 0) :
    (s.halt code info).Inv :=
  { h with faultHalted := fun _ => rfl, noFaultNoInfo := hinfo, waiting := nofun }

theorem State.Inv.takeFault (h : s.Inv) {e : Raise} (he : e.code ≠ .none) : (s.takeFault e).Inv :=
  h.halt fun hc => absurd hc he

theorem State.Inv.cycle (h : s.Inv) (hc : s.cycle = .next t) : t.Inv := by
  obtain ⟨-, heq⟩ | ⟨-, e, hf, heq⟩ | ⟨-, op, r, -, -, heq⟩ | ⟨hrun, op, i, hf, hd, heq⟩ :=
    State.cycle_cases s <;> rw [heq] at hc
  · cases hc; exact h
  · cases hc; exact h.takeFault (by simp [State.raise_of_fetch hf, outOfRange])
  · cases hc; exact h.takeFault (by simp)
  · exact (exec_effect hc).inv h hrun hf hd

theorem State.Inv.tick (h : s.Inv) : s.tick.Inv := by
  unfold State.tick
  split
  · exact { h with }
  · exact h
  · exact h

/-- The key that ends a wait leaves the `Fx0A` behind: `PC` had room to advance (R185). -/
theorem State.Inv.completeWait (h : s.Inv) (hw : s.runState = .waitingForKey) (k : Key) :
    (s.completeWait k).Inv := by
  obtain ⟨op, hfetch, -⟩ := h.waiting hw
  have hpc := State.pc_le_of_fetch hfetch
  exact { h with
    pcLe := (toNat_add_two hpc).trans_le (by omega)
    faultHalted := fun hf => absurd (h.faultCode_eq_none (by simp [hw])) hf
    waiting := nofun }

theorem State.Inv.keyDown (h : s.Inv) (k : Key) : (s.keyDown k).Inv := by
  unfold State.keyDown
  split
  · exact h.setKeys _
  · next hw => exact (h.setKeys (pressKey s.keys k)).completeWait hw k
  · exact h.setKeys _

theorem State.Inv.quit (h : s.Inv) : s.quit.Inv := by
  unfold State.quit
  split
  · exact h.halt fun _ => rfl
  · exact h.halt fun _ => rfl
  · exact h

theorem State.Inv.loadProgram (h : s.Inv) (bytes : List Byte) : (s.loadProgram bytes).Inv := by
  unfold State.loadProgram
  split
  · next hrun =>
    split
    · exact h
    · by_cases hfit : Config.progBase.toNat + bytes.length ≤ 4096
      · rw [State.memWrite_ok hfit]
        exact h.setMem hrun (Memory.wf_writeRange h.memWf _ _ hfit)
      · rw [State.memWrite_error hfit]
        exact h.takeFault (by simp [outOfRange])
  · exact h
  · exact h

theorem State.Inv.deliver (h : s.Inv) (e : HostEvent) (hd : s.deliver e = .next t) : t.Inv := by
  cases e with
  | reset => cases hd; exact State.inv_restart s
  | loadProgram bytes => cases hd; exact h.loadProgram bytes
  | cycle => exact h.cycle hd
  | tick => cases hd; exact h.tick
  | keyDown k => cases hd; exact h.keyDown k
  | keyUp k => cases hd; exact h.setKeys _
  | quit => cases hd; exact h.quit

/-- Settles O59: a step delivers one host event, and every event keeps the invariant. -/
theorem everyStepKeepsTheInvariant : Obligations.EveryStepKeepsTheInvariant :=
  fun _ _ hinv hstep => hinv.dropEvent.deliver _ hstep

/-- Settles O60: the reset state meets the invariant, whatever the parameters. -/
theorem theInvariantHoldsAtReset : Obligations.TheInvariantHoldsAtReset :=
  ⟨State.inv_resetWith _, State.inv_resetWith⟩

end Sys2Proof.Machine
end

section
/-! Which instruction writes which part of the state: each part is read off the shapes of `Effect`, and
the shape that changes it names its instruction. -/

namespace Sys2Proof.Machine

variable {s t : State} {i : Instr}

/-- A write to a register changes no other one. -/
theorem State.eq_of_reg_setReg_ne {x r : Reg} {b : Byte} (h : (s.setReg x b).reg r ≠ s.reg r) : r = x :=
  by_contra fun hx => h (s.reg_setReg_other b hx)

/-- `Fx65` leaves the registers above `V[x]` (R155). -/
theorem getElem_writeRegs_of_length_le {bytes : List Byte} {r : Reg} (v : Vector Byte 16)
    (h : bytes.length ≤ r.val) : (writeRegs v 0 bytes)[r] = v[r] := by
  rw [getElem_writeRegs]
  simp [List.getElem?_eq_none h]

/-- A register is written as the destination, as the flag, or by the block load. -/
theorem Effect.reg_writer (h : Effect s i t) {r : Reg} (hne : t.reg r ≠ s.reg r) :
    i.dest = some r ∨ (r = regVF ∧ i.writesFlag) ∨ ∃ x, i = .ldVxMem x ∧ r ≤ x := by
  cases h with
  | result hx b => exact .inl (State.eq_of_reg_setReg_ne (s := s) hne ▸ hx)
  | random x nn rand => exact .inl (congrArg some (State.eq_of_reg_setReg_ne (s := s) hne).symm)
  | @flagResult _ x hf hx c b =>
    by_cases hrx : r = x
    · exact .inl (hrx ▸ hx)
    · have hflag : ((s.setFlag c).setReg x b).reg r = (s.setFlag c).reg r :=
        State.reg_setReg_other _ b hrx
      exact .inr (.inl ⟨State.eq_of_reg_setReg_ne (s := s) fun heq => hne (hflag.trans heq), hf⟩)
  | draw => exact .inr (.inl ⟨State.eq_of_reg_setReg_ne (s := s) hne, trivial⟩)
  | @load x bytes hlen =>
    have hle : r ≤ x := le_of_not_gt fun hlt =>
      hne (getElem_writeRegs_of_length_le s.v (hlen.trans_le hlt))
    exact .inr (.inr ⟨x, rfl, hle⟩)
  | _ => exact absurd rfl hne

theorem Effect.general_register_writer (h : Effect s i t) {r : Reg} (hr : r ≠ regVF)
    (hne : t.reg r ≠ s.reg r) : i.dest = some r ∨ ∃ x, i = .ldVxMem x ∧ r ≤ x :=
  (h.reg_writer hne).imp_right (Or.resolve_left · fun hf => hr hf.1)

/-- The block load reaches `VF` only when it is the destination. -/
theorem Effect.flag_writer (h : Effect s i t) (hne : t.reg regVF ≠ s.reg regVF) :
    i.writesFlag ∨ i.dest = some regVF := by
  obtain hdest | ⟨-, hf⟩ | ⟨x, rfl, hx⟩ := h.reg_writer hne
  · exact .inr hdest
  · exact .inl hf
  · exact .inr (congrArg some (Fin.last_le_iff.mp hx))

theorem Effect.index_writer (h : Effect s i t) (hne : t.i ≠ s.i) :
    ∃ x nnn, i = .ldI nnn ∨ i = .addIVx x ∨ i = .ldFVx x := by
  cases h with
  | index hi w => exact hi
  | _ => exact absurd rfl hne

theorem Effect.stack_writer (h : Effect s i t) (hne : t.sp ≠ s.sp ∨ t.stack ≠ s.stack) :
    i = .ret ∨ ∃ nnn, i = .call nnn := by
  cases h with
  | ret => exact .inl rfl
  | call nnn => exact .inr ⟨nnn, rfl⟩
  | _ => exact absurd hne (not_or.mpr ⟨not_not.mpr rfl, not_not.mpr rfl⟩)

theorem Effect.delayTimer_writer (h : Effect s i t) (hne : t.dt ≠ s.dt) : ∃ x, i = .ldDTVx x := by
  cases h with
  | delayTimer x => exact ⟨x, rfl⟩
  | _ => exact absurd rfl hne

theorem Effect.soundTimer_writer (h : Effect s i t) (hne : t.st ≠ s.st) : ∃ x, i = .ldSTVx x := by
  cases h with
  | soundTimer x => exact ⟨x, rfl⟩
  | _ => exact absurd rfl hne

theorem Effect.mem_writer (h : Effect s i t) (hne : t.mem ≠ s.mem) :
    ∃ x, i = .ldBVx x ∨ i = .ldMemVx x := by
  cases h with
  | store hi => exact hi
  | _ => exact absurd rfl hne

theorem Effect.fb_writer (h : Effect s i t) (hne : t.fb ≠ s.fb) :
    i = .cls ∨ ∃ x y n, i = .drw x y n := by
  cases h with
  | clear => exact .inl rfl
  | draw x y n => exact .inr ⟨x, y, n, rfl⟩
  | _ => exact absurd rfl hne

theorem Effect.runState_writer (h : Effect s i t) (hne : t.runState ≠ s.runState) :
    (∃ x, i = .ldVxK x) ∨ ∃ code info, code ≠ .none ∧ t = s.faulted code info := by
  cases h with
  | wait x => exact .inl ⟨x, rfl⟩
  | fault he => exact .inr ⟨_, _, he.code_ne_none, rfl⟩
  | _ => exact absurd rfl hne

theorem Effect.waitX_writer (h : Effect s i t) (hne : t.waitX ≠ s.waitX) :
    ∃ x, i = .ldVxK x ∧ t.waitX = x := by
  cases h with
  | wait x => exact ⟨x, rfl, rfl⟩
  | _ => exact absurd rfl hne

theorem Effect.fault_writer (h : Effect s i t)
    (hne : t.faultCode ≠ s.faultCode ∨ t.faultInfo ≠ s.faultInfo) :
    ∃ code info, code ≠ .none ∧ t = s.faulted code info := by
  cases h with
  | fault he => exact ⟨_, _, he.code_ne_none, rfl⟩
  | _ => exact absurd hne (not_or.mpr ⟨not_not.mpr rfl, not_not.mpr rfl⟩)

theorem Effect.draws_writer (h : Effect s i t) (hne : t.draws ≠ s.draws) : ∃ x nn, i = .rnd x nn := by
  cases h with
  | random x nn => exact ⟨x, nn, rfl⟩
  | _ => exact absurd rfl hne

/-- No instruction writes the keypad, the parameters or the events to come. -/
theorem Effect.frame (h : Effect s i t) : t.keys = s.keys ∧ t.cfg = s.cfg ∧ t.events = s.events := by
  cases h <;> exact ⟨rfl, rfl, rfl⟩

/-- Settles O56: each clause is the writer of its part. -/
theorem everyPartHasItsWriters : Obligations.EveryPartHasItsWriters := fun _ _ _ hexec =>
  have h := exec_effect hexec
  ⟨fun _ => h.general_register_writer, h.flag_writer, h.index_writer, h.stack_writer,
    h.delayTimer_writer, h.soundTimer_writer, h.mem_writer,
    fun ⟨_, _, hne⟩ => h.fb_writer fun hfb => hne (by rw [State.pixel, State.pixel, hfb]),
    h.runState_writer, h.waitX_writer, h.fault_writer, h.draws_writer, h.frame⟩

end Sys2Proof.Machine
end

section
/-! The flag register after an instruction that writes it (spec/10_state.md R22). -/

namespace Sys2Proof.Machine

variable {s t : State} {i : Instr}

theorem flagByte_eq (c : Bool) : flagByte c = 0 ∨ flagByte c = 1 := by
  cases c <;> simp [flagByte]

/-- A flag survives the result, unless the result goes to `V[15]` (R148). -/
theorem State.flag_of_flagResult {c : Bool} {x : Reg} {b : Byte} (hx : some x ≠ some regVF)
    (h : s.flagResult c x b = .next t) : t.reg regVF = flagByte c := by
  cases h
  have hne : regVF ≠ x := fun heq => hx (congrArg some heq.symm)
  simp [State.reg_setReg_other _ _ hne]

theorem State.flag_of_execDrw {x y : Reg} {n : Rows} (h : execDrw x y n s = .next t)
    (hrun : t.runState ≠ .halted) : ∃ c, t.reg regVF = flagByte c := by
  unfold execDrw at h
  split at h <;> cases h
  · exact ⟨_, State.reg_setReg_same ..⟩
  · exact absurd rfl hrun

/-- An instruction that writes a flag and completes leaves a flag in `VF`. -/
theorem exists_flag_of_exec (hf : i.writesFlag) (hdest : i.dest ≠ some regVF)
    (h : exec i s = .next t) (hrun : t.runState ≠ .halted) : ∃ c, t.reg regVF = flagByte c := by
  cases i with
  | addReg | subReg | shrReg | subnReg | shlReg => exact ⟨_, State.flag_of_flagResult hdest h⟩
  | drw => exact State.flag_of_execDrw h hrun
  | _ => exact hf.elim

/-- Settles O57: the flag written is a `flagByte` (D12). -/
theorem flagsAreZeroOrOne : Obligations.FlagsAreZeroOrOne := by
  intro i s t hf hdest _ hexec hrun
  obtain ⟨c, hc⟩ := exists_flag_of_exec hf hdest hexec hrun
  exact hc ▸ flagByte_eq c

end Sys2Proof.Machine
end

section
/-! The keypad is no input of an instruction, but for `Ex9E` and `ExA1` (spec/10_state.md R38): each
operation on a state with another keypad state does what it does on the state itself. -/

namespace Sys2Proof.Machine

variable {i : Instr} (s : State) (ks : BitVec 16)

@[simp] theorem State.memRead_setKeys (a : Word) (n : Nat) :
    (s.setKeys ks).memRead a n = s.memRead a n := rfl

@[simp] theorem State.spriteRows_setKeys (n : Rows) :
    (s.setKeys ks).spriteRows n = s.spriteRows n := rfl

@[simp] theorem State.memWrite_setKeys (a : Word) (bytes : List Byte) :
    (s.setKeys ks).memWrite a bytes = (s.memWrite a bytes).map (·.setKeys ks) := by
  unfold State.memWrite
  rw [apply_ite (Except.map _)]
  rfl

@[simp] theorem State.push_setKeys (w : Word) :
    (s.setKeys ks).push w = (s.push w).map (·.setKeys ks) := by
  unfold State.push
  rw [apply_ite (Except.map _)]
  rfl

@[simp] theorem State.pop_setKeys :
    (s.setKeys ks).pop = s.pop.map fun p => (p.1, p.2.setKeys ks) := by
  unfold State.pop
  rw [apply_ite (Except.map _)]
  rfl

variable {s} {ks} {t : State}

/-- The end of a handler whose result carries the other keypad state along. -/
theorem State.commit_setKeys {r r' : Except Raise State} (hr : r' = r.map (·.setKeys ks))
    (h : s.commit r = .next t) : (s.setKeys ks).commit r' = .next (t.setKeys ks) := by
  subst hr
  obtain rfl | ⟨e, rfl, rfl⟩ := State.commit_cases h <;> rfl

theorem State.storeAtI_setKeys {bytes : List Byte} (h : s.storeAtI bytes = .next t) :
    (s.setKeys ks).storeAtI bytes = .next (t.setKeys ks) := by
  refine State.commit_setKeys ?_ h
  rw [State.memWrite_setKeys, State.setKeys_i]
  cases s.memWrite s.i bytes <;> rfl

/-- Every instruction but the two key skips carries the keypad state along unread (R38). -/
theorem exec_setKeys (hi : ∀ x, i ≠ .skp x ∧ i ≠ .sknp x) (h : exec i s = .next t) :
    exec i (s.setKeys ks) = .next (t.setKeys ks) := by
  cases i with
  | skp x => exact absurd rfl (hi x).1
  | sknp x => exact absurd rfl (hi x).2
  | ret =>
    refine State.commit_setKeys ?_ h
    rw [State.pop_setKeys]
    cases s.pop <;> rfl
  | call nnn =>
    refine State.commit_setKeys ?_ h
    rw [State.push_setKeys, State.setKeys_pc]
    cases s.push (s.pc + 2) <;> rfl
  | drw x y n =>
    refine State.commit_setKeys ?_ h
    rw [State.spriteRows_setKeys]
    cases s.spriteRows n <;> rfl
  | ldVxMem x =>
    refine State.commit_setKeys ?_ h
    rw [State.memRead_setKeys, State.setKeys_i]
    cases s.memRead s.i (x.val + 1) <;> rfl
  | ldBVx | ldMemVx => exact State.storeAtI_setKeys h
  | _ => cases h; rfl

/-- Settles O58: `exec_setKeys`, with the keypad replaced by a record update. -/
theorem onlyKeySkipsReadTheKeypad : Obligations.OnlyKeySkipsReadTheKeypad :=
  fun _ _ _ _ => exec_setKeys

end Sys2Proof.Machine
end

section
/-! What the document fixes of the state after reset (spec/10_state.md R45). -/

namespace Sys2Proof

/-- Memory right after reset: FONT from 0x050 on, zero elsewhere (R45). -/
theorem Config.resetByte_eq (c : Config) (a : Nat) :
    c.resetByte a = if h : 0x050 ≤ a ∧ a < 0x0A0 then c.font[a - 0x050]'(by omega) else 0 := by
  simp only [Config.resetByte, Config.fontBase]
  by_cases hlo : 0x050 ≤ a
  · by_cases hhi : a < 0x0A0
    · have hidx : a - 0x050 < 80 := by omega
      simp [hlo, hhi, hidx]
    · have hidx : ¬ a - 0x050 < 80 := by omega
      simp [hlo, hhi, hidx]
  · simp [hlo]

/-- Settles O24: an unwritten memory reads as `Config.resetByte`, and the grid is the cleared one. -/
theorem Machine.resetStateAsTheDocumentFixesIt : Obligations.ResetStateAsTheDocumentFixesIt :=
  ⟨rfl, fun c => ⟨rfl, rfl, fun a _ => c.resetByte_eq a, Framebuffer.pixel_clear⟩⟩

end Sys2Proof
end

section
/-! The stores `Fx33` and `Fx55` (spec/44_index_memory.md R153, R154): what memory holds after a store at
`I`, what the next fetch then sees of it, and that no other instruction changes memory. -/

namespace Sys2Proof.Machine

variable {s t : State} {i : Instr}

/-! ### The bytes each store writes -/

@[simp] theorem State.length_regsUpTo (s : State) (x : Reg) : (s.regsUpTo x).length = x.val + 1 := by
  simp [State.regsUpTo]

/-- The k-th byte of `Fx55` is `V[k]` (R154). -/
theorem State.toNat_getElem_regsUpTo {x : Reg} {k : Nat} (hk : k < (s.regsUpTo x).length) :
    (s.regsUpTo x)[k].toNat = s.regValue k := by
  have hlt : k < 16 := by
    rw [State.length_regsUpTo] at hk
    omega
  simp [State.regsUpTo, State.regValue, State.reg, hlt]

@[simp] theorem length_bcdDigits (b : Byte) : (bcdDigits b).length = 3 := rfl

/-- Each decimal digit fits its byte (R153). -/
theorem toNat_getElem_bcdDigits {b : Byte} {k : Nat} (hk : k < (bcdDigits b).length) :
    (bcdDigits b)[k].toNat = digitValue b k := by
  rw [length_bcdDigits] at hk
  interval_cases k <;> simp [bcdDigits, digitValue] <;> omega

/-- The two stores write at most sixteen bytes at `I` (R59). -/
theorem exists_storeAtI_of_exec (hi : ∃ x, i = .ldBVx x ∨ i = .ldMemVx x) (s : State) :
    ∃ bytes : List Byte, bytes.length ≤ 16 ∧ exec i s = s.storeAtI bytes := by
  obtain ⟨x, rfl | rfl⟩ := hi
  · exact ⟨bcdDigits (s.reg x), by simp, rfl⟩
  · exact ⟨s.regsUpTo x, by rw [s.length_regsUpTo]; omega, rfl⟩

/-! ### Memory after a store -/

/-- A store at `I` that fits advances `PC` and leaves at each address the byte stored there, or the byte
that was there (R53). -/
theorem State.exists_byteAfterStore_of_storeAtI {bytes : List Byte} {value : Nat → Nat}
    (hwf : s.memWf = true) (hfit : s.i.toNat + bytes.length ≤ 4096)
    (hval : ∀ k (hk : k < bytes.length), bytes[k].toNat = value k) :
    ∃ u, s.storeAtI bytes = .next u ∧ u.pc = s.pc + 2 ∧
      ∀ a, (u.readByte a).toNat = s.byteAfterStore bytes.length value a := by
  obtain ⟨u, hstore, hu, -, hread⟩ := State.storeAtI_spec hwf hfit
  refine ⟨u, hstore, congrArg State.pc hu, fun a => ?_⟩
  rw [hread, State.byteAfterStore]
  by_cases hlo : s.i.toNat ≤ a
  · by_cases hhi : a < s.i.toNat + bytes.length
    · have hk : a - s.i.toNat < bytes.length := by omega
      simp [hlo, hhi, hk, hval]
    · have hk : bytes.length ≤ a - s.i.toNat := by omega
      simp [hlo, hhi, hk]
  · simp [hlo]

/-- A store at `I`, completed or not, changes no byte outside its range (R53, R97). -/
theorem State.range_of_readByte_ne_of_storeAtI {bytes : List Byte} {a : Nat} (hwf : s.memWf = true)
    (h : s.storeAtI bytes = .next t) (hne : t.readByte a ≠ s.readByte a) :
    s.i.toNat ≤ a ∧ a < s.i.toNat + bytes.length := by
  by_cases hfit : s.i.toNat + bytes.length ≤ 4096
  · obtain ⟨u, hstore, -, -, hread⟩ := State.storeAtI_spec hwf hfit
    cases hstore.symm.trans h
    rw [hread a] at hne
    have hlo : s.i.toNat ≤ a := by_contra fun hlo => hne (if_neg hlo)
    rw [if_pos hlo] at hne
    refine ⟨hlo, by_contra fun hhi => hne ?_⟩
    rw [List.getElem?_eq_none (by omega), Option.getD_none]
  · rw [State.storeAtI_error hfit] at h
    cases h
    exact absurd rfl hne

/-! ### The fetch after a store (spec/20_memory.md R64) -/

/-- There is no cache between a store and the fetch at the new `PC`: the word has the bytes that memory
holds after the store, high byte first (R62, R64). -/
theorem State.exists_fetch_after_storeAtI {bytes : List Byte} {value : Nat → Nat}
    (hwf : s.memWf = true) (hpc : s.pc.toNat + 4 ≤ 4096) (hfit : s.i.toNat + bytes.length ≤ 4096)
    (hval : ∀ k (hk : k < bytes.length), bytes[k].toNat = value k) :
    ∃ u, s.storeAtI bytes = .next u ∧ ∃ op : Word, u.fetch = .ok op ∧
      op.toNat = s.byteAfterStore bytes.length value (s.pc.toNat + 2) * 256 +
        s.byteAfterStore bytes.length value (s.pc.toNat + 3) := by
  obtain ⟨u, hstore, hupc, hbyte⟩ := State.exists_byteAfterStore_of_storeAtI hwf hfit hval
  have hnext : u.pc.toNat = s.pc.toNat + 2 := by rw [hupc, toNat_add_two (by omega)]
  refine ⟨u, hstore, _, State.fetch_ok (by omega), ?_⟩
  rw [toNat_beWord_pair, hbyte, hbyte, hnext]

/-- Settles O47: both stores are a store at `I` of bytes whose values the statement names. -/
theorem storedBytesAreFetchedNext : Obligations.StoredBytesAreFetchedNext := by
  refine fun x s hwf hpc => ⟨fun hfit => ?_, fun hfit => ?_⟩
  · have hstore := State.exists_fetch_after_storeAtI (bytes := s.regsUpTo x) hwf hpc
      (by rw [s.length_regsUpTo]; omega) fun _ => State.toNat_getElem_regsUpTo
    rwa [s.length_regsUpTo] at hstore
  · exact State.exists_fetch_after_storeAtI (bytes := bcdDigits (s.reg x)) hwf hpc hfit
      fun _ => toNat_getElem_bcdDigits

/-! ### Only the stores change memory (spec/20_memory.md R59, R60) -/

/-- A byte changes only when the memory does: the parameters, which give what an unwritten address reads
as, stay. -/
theorem Effect.mem_ne_of_readByte_ne (h : Effect s i t) {a : Nat}
    (hne : t.readByte a ≠ s.readByte a) : t.mem ≠ s.mem := by
  obtain ⟨-, hcfg, -⟩ := h.frame
  intro hmem
  exact hne (by rw [State.readByte, State.readByte, hmem, hcfg])

/-- Settles O55: the instruction that changed the byte is a store, and a store of at most sixteen bytes
reaches no further than `I + 15`. -/
theorem onlyStoresChangeMemory : Obligations.OnlyStoresChangeMemory := by
  intro i s t a hwf hexec hne
  have heffect := exec_effect hexec
  have hi := heffect.mem_writer (heffect.mem_ne_of_readByte_ne hne)
  obtain ⟨bytes, hlen, hstore⟩ := exists_storeAtI_of_exec hi s
  obtain ⟨hlo, hhi⟩ := State.range_of_readByte_ne_of_storeAtI hwf (hstore ▸ hexec) hne
  exact ⟨hi, hlo, by omega⟩

end Sys2Proof.Machine
end

section
/-! The decoder against the encoder and against the bits of the word (spec/30_encoding.md R71 to R76):
each undoes the other, and a word is rejected exactly when it is in one of the classes of R75. -/

namespace Sys2Proof

section Fields
variable (w : Word)

/-! ### The fields as numbers (R71) -/

theorem toNat_classField : (classField w).toNat = w.toNat / 4096 := by
  simp only [classField, BitVec.extractLsb'_toNat, Nat.shiftRight_eq_div_pow]
  omega

theorem val_nField : (nField w).val = w.toNat % 16 := by
  simp [nField]

theorem toNat_nnField : (nnField w).toNat = w.toNat % 256 := by
  simp [nnField]

theorem toNat_nnnField : (nnnField w).toNat = w.toNat % 4096 := by
  simp [nnnField]

/-! ### The fields of a format make up the whole word (R72) -/

theorem encodeNNN_fields : encodeNNN (classField w) (nnnField w) = w := by
  change w.extractLsb' 12 4 ++ w.extractLsb' 0 12 = w
  rw [BitVec.extractLsb'_append_extractLsb'_eq_extractLsb', BitVec.extractLsb'_eq_self]
  rfl

theorem encodeXNN_fields : encodeXNN (classField w) (xField w) (nnField w) = w := by
  change w.extractLsb' 12 4 ++ w.extractLsb' 8 4 ++ w.extractLsb' 0 8 = w
  rw [BitVec.extractLsb'_append_extractLsb'_eq_extractLsb',
    BitVec.extractLsb'_append_extractLsb'_eq_extractLsb', BitVec.extractLsb'_eq_self] <;> rfl

theorem encodeXY_fields :
    encodeXY (classField w) (xField w) (yField w) (BitVec.ofFin (w := 4) (nField w)) = w := by
  change w.extractLsb' 12 4 ++ w.extractLsb' 8 4 ++ w.extractLsb' 4 4 ++ w.extractLsb' 0 4 = w
  rw [BitVec.extractLsb'_append_extractLsb'_eq_extractLsb',
    BitVec.extractLsb'_append_extractLsb'_eq_extractLsb',
    BitVec.extractLsb'_append_extractLsb'_eq_extractLsb', BitVec.extractLsb'_eq_self] <;> rfl

end Fields

variable {w : Word} {i : Instr} {c : Nibble}

/-! ### The same, for fields the decoder has matched against literals (R74) -/

theorem encodeNNN_eq_of_fields {nnn : Addr12} (hc : (classField w).toNat = c.toNat)
    (hnnn : (nnnField w).toNat = nnn.toNat) : encodeNNN c nnn = w := by
  rw [← BitVec.eq_of_toNat_eq hc, ← BitVec.eq_of_toNat_eq hnnn, encodeNNN_fields]

theorem encodeXNN_eq_of_fields {nn : Byte} (hc : (classField w).toNat = c.toNat)
    (hnn : (nnField w).toNat = nn.toNat) : encodeXNN c (xField w) nn = w := by
  rw [← BitVec.eq_of_toNat_eq hc, ← BitVec.eq_of_toNat_eq hnn, encodeXNN_fields]

theorem encodeXY_eq_of_fields {low : Nibble} (hc : (classField w).toNat = c.toNat)
    (hlow : (nField w).val = low.toNat) : encodeXY c (xField w) (yField w) low = w := by
  have hlow : BitVec.ofFin (w := 4) (nField w) = low := BitVec.eq_of_toNat_eq hlow
  rw [← BitVec.eq_of_toNat_eq hc, ← hlow, encodeXY_fields]

/-! ### Decoding an encoded instruction -/

/-- The fields of an encoded instruction are its operands and its fixed digits, so the decoder selects
its row. -/
theorem decodeWord_encodeWord (i : Instr) : decodeWord (encodeWord i) = .ok i := by
  cases i with
  | cls | ret => rfl
  | jp | call | ldI | jpV0 => simp [encodeWord, decodeWord]
  | seByte | sneByte | ldByte | addByte | rnd => simp [encodeWord, decodeWord]
  | drw => simp [encodeWord, decodeWord]
  | seReg => simp [encodeWord, decodeWord, decodeClass5]
  | ldReg | orReg | andReg | xorReg | addReg | subReg | shrReg | subnReg | shlReg =>
    simp [encodeWord, decodeWord, decodeClass8]
  | sneReg => simp [encodeWord, decodeWord, decodeClass9]
  | skp | sknp => simp [encodeWord, decodeWord, encodeX, decodeClassE]
  | ldVxDT | ldVxK | ldDTVx | ldSTVx | addIVx | ldFVx | ldBVx | ldMemVx | ldVxMem =>
    simp [encodeWord, decodeWord, encodeX, decodeClassF]

/-- From the bytes, the decoder reads the word they hold and leaves the rest (R57, R70). -/
theorem decode_beBytes_append (h : decodeWord w = .ok i) (rest : List Byte) :
    decode (beBytes w ++ rest) = .ok (i, rest) := by
  have hw : beWord [w.extractLsb' 8 8, w.extractLsb' 0 8] = w := beWord_beBytes w
  simp [decode, beBytes, hw, h]

/-- Settles O1: from the word by `decodeWord_encodeWord`, from the bytes by joining them. -/
theorem decodeOfEncodeIsTheInstruction : Obligations.DecodeOfEncodeIsTheInstruction :=
  ⟨decodeWord_encodeWord, fun i => decode_beBytes_append (decodeWord_encodeWord i)⟩

/-! ### Encoding a decoded word: one lemma for each class the decoder looks into -/

theorem encodeWord_of_decodeClass0 (hc : (classField w).toNat = 0x0) (h : decodeClass0 w = .ok i) :
    encodeWord i = w := by
  unfold decodeClass0 at h
  split at h <;> cases h
  · exact encodeNNN_eq_of_fields (c := 0x0) (nnn := 0x0E0) hc ‹_›
  · exact encodeNNN_eq_of_fields (c := 0x0) (nnn := 0x0EE) hc ‹_›

theorem encodeWord_of_decodeClass5 (hc : (classField w).toNat = 0x5) (h : decodeClass5 w = .ok i) :
    encodeWord i = w := by
  unfold decodeClass5 at h
  split at h <;> cases h
  exact encodeXY_eq_of_fields hc ‹_›

theorem encodeWord_of_decodeClass8 (hc : (classField w).toNat = 0x8) (h : decodeClass8 w = .ok i) :
    encodeWord i = w := by
  unfold decodeClass8 at h
  split at h <;> cases h <;> exact encodeXY_eq_of_fields hc ‹_›

theorem encodeWord_of_decodeClass9 (hc : (classField w).toNat = 0x9) (h : decodeClass9 w = .ok i) :
    encodeWord i = w := by
  unfold decodeClass9 at h
  split at h <;> cases h
  exact encodeXY_eq_of_fields hc ‹_›

theorem encodeWord_of_decodeClassE (hc : (classField w).toNat = 0xE) (h : decodeClassE w = .ok i) :
    encodeWord i = w := by
  unfold decodeClassE at h
  split at h <;> cases h <;> exact encodeXNN_eq_of_fields hc ‹_›

theorem encodeWord_of_decodeClassF (hc : (classField w).toNat = 0xF) (h : decodeClassF w = .ok i) :
    encodeWord i = w := by
  unfold decodeClassF at h
  split at h <;> cases h <;> exact encodeXNN_eq_of_fields hc ‹_›

/-- Every bit of a decoded word is a digit the decoder matched or a field it kept (R73, R74). The
alternatives of the decoder are numbered from class 0x0, which is `h_1`, to class 0xF, `h_16`. -/
theorem encodeWord_of_decodeWord (h : decodeWord w = .ok i) : encodeWord i = w := by
  unfold decodeWord at h
  split at h
  case h_1 hc => exact encodeWord_of_decodeClass0 hc h
  case h_6 hc => exact encodeWord_of_decodeClass5 hc h
  case h_9 hc => exact encodeWord_of_decodeClass8 hc h
  case h_10 hc => exact encodeWord_of_decodeClass9 hc h
  case h_15 hc => exact encodeWord_of_decodeClassE hc h
  case h_16 hc => exact encodeWord_of_decodeClassF hc h
  case h_2 hc | h_3 hc | h_11 hc | h_12 hc =>
    cases h
    exact encodeNNN_eq_of_fields hc rfl
  case h_4 hc | h_5 hc | h_7 hc | h_8 hc | h_13 hc =>
    cases h
    exact encodeXNN_eq_of_fields hc rfl
  case h_14 hc =>
    cases h
    exact encodeXY_eq_of_fields hc rfl
  case h_17 => cases h

/-- Settles O2: `encodeWord_of_decodeWord`. -/
theorem encodeOfDecodeIsTheWord : Obligations.EncodeOfDecodeIsTheWord :=
  fun _ _ => encodeWord_of_decodeWord

/-! ### The words that are rejected (R75): one lemma for each class the decoder looks into -/

theorem decodeClass0_eq_error_iff : decodeClass0 w = .error (.unimplementedOpcode w) ↔
    w.toNat % 4096 ≠ 0x0E0 ∧ w.toNat % 4096 ≠ 0x0EE := by
  rw [← toNat_nnnField]
  unfold decodeClass0
  split <;> simp_all

theorem decodeClass5_eq_error_iff : decodeClass5 w = .error (.unimplementedOpcode w) ↔
    w.toNat % 16 ≠ 0 := by
  rw [← val_nField]
  unfold decodeClass5
  split <;> simp_all

theorem decodeClass8_eq_error_iff : decodeClass8 w = .error (.unimplementedOpcode w) ↔
    8 ≤ w.toNat % 16 ∧ w.toNat % 16 ≠ 0xE := by
  rw [← val_nField]
  unfold decodeClass8
  split <;> simp_all
  omega

theorem decodeClass9_eq_error_iff : decodeClass9 w = .error (.unimplementedOpcode w) ↔
    w.toNat % 16 ≠ 0 := by
  rw [← val_nField]
  unfold decodeClass9
  split <;> simp_all

theorem decodeClassE_eq_error_iff : decodeClassE w = .error (.unimplementedOpcode w) ↔
    w.toNat % 256 ≠ 0x9E ∧ w.toNat % 256 ≠ 0xA1 := by
  rw [← toNat_nnField]
  unfold decodeClassE
  split <;> simp_all

theorem decodeClassF_eq_error_iff : decodeClassF w = .error (.unimplementedOpcode w) ↔
    w.toNat % 256 ∉ [0x07, 0x0A, 0x15, 0x18, 0x1E, 0x29, 0x33, 0x55, 0x65] := by
  rw [← toNat_nnField]
  unfold decodeClassF
  split <;> simp_all

/-- Settles O4: a class without minor codes rejects no word, each of the others by its own lemma. -/
theorem unimplementedWordsByClass : Obligations.UnimplementedWordsByClass := by
  intro w
  have hlt := (classField w).isLt
  rw [← toNat_classField]
  unfold decodeWord
  split
  case h_1 hc => simp [hc, decodeClass0_eq_error_iff]
  case h_6 hc => simp [hc, decodeClass5_eq_error_iff]
  case h_9 hc => simp [hc, decodeClass8_eq_error_iff]
  case h_10 hc => simp [hc, decodeClass9_eq_error_iff]
  case h_15 hc => simp [hc, decodeClassE_eq_error_iff]
  case h_16 hc => simp [hc, decodeClassF_eq_error_iff]
  case h_17 =>
    simp only [imp_false] at *
    omega
  -- in the remaining classes every word is an instruction
  all_goals simp [*]

/-- Settles O5: the decoder computes on each word. -/
theorem sampleWordsDecode : Obligations.SampleWordsDecode := by
  unfold Obligations.SampleWordsDecode
  decide

end Sys2Proof
end

section
/-! The decoder against the rows of the opcode table (spec/30_encoding.md R73, spec/40_cycle.md R94): a
word that selects a row is decoded to it, and a word that selects none is rejected. -/

namespace Sys2Proof

variable {w : Word} {i : Instr}

/-! ### Operand fields cut from the word (R71) -/

/-- The field holds the bits `hi..lo` of the word. -/
def Field.cutFrom (f : Field) (w : Word) : Prop :=
  f.value = w.toNat / 2 ^ f.lo % 2 ^ (f.hi + 1 - f.lo)

@[simp] theorem cutFrom_x (w : Word) : (Field.x (xField w)).cutFrom w := by
  simp [Field.cutFrom, Field.x, xField, Nat.shiftRight_eq_div_pow]

@[simp] theorem cutFrom_y (w : Word) : (Field.y (yField w)).cutFrom w := by
  simp [Field.cutFrom, Field.y, yField, Nat.shiftRight_eq_div_pow]

@[simp] theorem cutFrom_n (w : Word) : (Field.n (nField w)).cutFrom w := by
  simp [Field.cutFrom, Field.n, nField]

@[simp] theorem cutFrom_nn (w : Word) : (Field.nn (nnField w)).cutFrom w := by
  simp [Field.cutFrom, Field.nn, nnField]

@[simp] theorem cutFrom_nnn (w : Word) : (Field.nnn (nnnField w)).cutFrom w := by
  simp [Field.cutFrom, Field.nnn, nnnField]

/-! ### A word that selects a row -/

/-- A row fixes every run of bits that its mask covers. -/
theorem extractLsb'_of_selectedBy {r : Row} (h : r.selectedBy w = true) {lo len : Nat}
    (hmask : r.mask.extractLsb' lo len = BitVec.allOnes len) :
    w.extractLsb' lo len = r.matchBits.extractLsb' lo len := by
  have hsel : w &&& r.mask = r.matchBits := beq_iff_eq.mp h
  rw [← hsel, BitVec.extractLsb'_and, hmask, BitVec.and_allOnes]

/-- Every row fixes the class (R74). -/
theorem toNat_classField_of_selectedBy (h : i.row.selectedBy w = true) :
    (classField w).toNat = i.row.matchBits.toNat / 4096 := by
  have hclass : classField w = classField i.row.matchBits :=
    extractLsb'_of_selectedBy h (by cases i <;> simp [Instr.row])
  rw [hclass, toNat_classField]

theorem val_nField_of_selectedBy {r : Row} (h : r.selectedBy w = true)
    (hmask : r.mask.extractLsb' 0 4 = BitVec.allOnes 4) : (nField w).val = r.matchBits.toNat % 16 := by
  have hn : nField w = nField r.matchBits := congrArg BitVec.toFin (extractLsb'_of_selectedBy h hmask)
  rw [hn, val_nField]

theorem toNat_nnField_of_selectedBy {r : Row} (h : r.selectedBy w = true)
    (hmask : r.mask.extractLsb' 0 8 = BitVec.allOnes 8) :
    (nnField w).toNat = r.matchBits.toNat % 256 := by
  have hnn : nnField w = nnField r.matchBits := extractLsb'_of_selectedBy h hmask
  rw [hnn, toNat_nnField]

theorem toNat_nnnField_of_selectedBy {r : Row} (h : r.selectedBy w = true)
    (hmask : r.mask.extractLsb' 0 12 = BitVec.allOnes 12) :
    (nnnField w).toNat = r.matchBits.toNat % 4096 := by
  have hnnn : nnnField w = nnnField r.matchBits := extractLsb'_of_selectedBy h hmask
  rw [hnnn, toNat_nnnField]

/-- The decoder selects the row that the word selects, and cuts its operand fields from the word. -/
theorem exists_decodeWord_of_selectedBy (h : i.row.selectedBy w = true) :
    ∃ j, decodeWord w = .ok j ∧ j.row = i.row ∧ ∀ f ∈ j.fields, f.cutFrom w := by
  have hclass := toNat_classField_of_selectedBy h
  cases i with
  | jp | call | ldI | jpV0 | seByte | sneByte | ldByte | addByte | rnd | drw =>
    simp [decodeWord, hclass, Instr.row, Instr.fields]
  | cls | ret =>
    have hnnn := toNat_nnnField_of_selectedBy h rfl
    simp [decodeWord, decodeClass0, hclass, hnnn, Instr.row, Instr.fields]
  | seReg | sneReg | ldReg | orReg | andReg | xorReg | addReg | subReg | shrReg | subnReg | shlReg =>
    have hn := val_nField_of_selectedBy h (by simp only [Instr.row]; decide)
    simp [decodeWord, decodeClass5, decodeClass8, decodeClass9, hclass, hn, Instr.row, Instr.fields]
  | skp | sknp | ldVxDT | ldVxK | ldDTVx | ldSTVx | addIVx | ldFVx | ldBVx | ldMemVx | ldVxMem =>
    have hnn := toNat_nnField_of_selectedBy h (by simp only [Instr.row]; decide)
    simp [decodeWord, decodeClassE, decodeClassF, hclass, hnn, Instr.row, Instr.fields]

/-! ### A word that selects no row -/

theorem row_mem_opcodeTable (i : Instr) : i.row ∈ opcodeTable := by
  cases i <;> exact List.elem_iff.mp rfl

open Laws.EncodingRow in
/-- The word of an instruction selects the row of the instruction. -/
theorem row_selectedBy_encodeWord (i : Instr) : i.row.selectedBy (encodeWord i) = true := by
  cases i with
  | cls | ret => rfl
  | jp | call | ldI | jpV0 => exact beq_iff_eq.mpr (selected_NNN ..)
  | seByte | sneByte | ldByte | addByte | rnd => exact beq_iff_eq.mpr (selected_XNN ..)
  | drw => exact beq_iff_eq.mpr (selected_XYN ..)
  | seReg | sneReg | ldReg | orReg | andReg | xorReg | addReg | subReg | shrReg | subnReg | shlReg =>
    exact beq_iff_eq.mpr (selected_XY ..)
  | skp | sknp | ldVxDT | ldVxK | ldDTVx | ldSTVx | addIVx | ldFVx | ldBVx | ldMemVx | ldVxMem =>
    exact beq_iff_eq.mpr (selected_X ..)

/-- The decoder rejects a word by naming that word (R75). -/
theorem decodeWord_error {r : Reject} (h : decodeWord w = .error r) : r = .unimplementedOpcode w := by
  unfold decodeWord at h
  split at h
  case h_1 => unfold decodeClass0 at h; split at h <;> cases h; rfl
  case h_6 => unfold decodeClass5 at h; split at h <;> cases h; rfl
  case h_9 => unfold decodeClass8 at h; split at h <;> cases h; rfl
  case h_10 => unfold decodeClass9 at h; split at h <;> cases h; rfl
  case h_15 => unfold decodeClassE at h; split at h <;> cases h; rfl
  case h_16 => unfold decodeClassF at h; split at h <;> cases h; rfl
  case h_17 => cases h; rfl
  -- in the remaining classes every word is an instruction
  all_goals cases h

/-- Settles O3: a word that selects a row is decoded to it, and one that is decoded selects the row of its
instruction. -/
theorem decodeReturnsTheMatchingRow : Obligations.DecodeReturnsTheMatchingRow := by
  refine ⟨rfl, fun w => ⟨fun r hr hsel => ?_, fun hnone => ?_⟩⟩
  · obtain ⟨i, -, rfl⟩ := List.mem_map.mp hr
    exact exists_decodeWord_of_selectedBy hsel
  · cases hdec : decodeWord w with
    | error r => rw [decodeWord_error hdec]
    | ok i =>
      have hsel := row_selectedBy_encodeWord i
      rw [encodeWord_of_decodeWord hdec, hnone _ (row_mem_opcodeTable i)] at hsel
      cases hsel

end Sys2Proof
end

section
/-! The fetch-decode-execute cycle (spec/40_cycle.md R91 to R93): what a step that answers a `Cycle` is, by
the run state, the fetch and the decoder. -/

namespace Sys2Proof.Machine

variable {s : State} {i : Instr} {op : Word}

theorem step_of_nextEvent_cycle (h : s.nextEvent = .cycle) : step s = s.dropEvent.cycle := by
  rw [step, h, State.deliver]

theorem State.cycle_of_not_running (h : s.runState ≠ .running) : s.cycle = .next s := by
  unfold State.cycle
  split
  · next hrun => exact absurd hrun h
  · rfl
  · rfl

theorem State.cycle_of_fetch_error {e : Raise} (hrun : s.runState = .running)
    (hfetch : s.fetch = .error e) : s.cycle = .next (s.takeFault e) := by
  simp only [State.cycle, hrun, hfetch]

theorem State.cycle_of_decodeWord (hrun : s.runState = .running) (hfetch : s.fetch = .ok op)
    (hdec : decodeWord op = .ok i) : s.cycle = exec i s := by
  simp only [State.cycle, hrun, hfetch, hdec]

/-- What `decode` reads from two bytes is what `decodeWord` reads from the word they hold (R57, R70). -/
theorem decodeWord_of_decode_pair {hi lo : Byte} {rest : List Byte}
    (h : decode [hi, lo] = .ok (i, rest)) : decodeWord (beWord [hi, lo]) = .ok i := by
  cases hw : decodeWord (beWord [hi, lo]) <;> simp_all [decode]

/-- Settles O6: the two bytes at `PC` are the word fetched, and taking the event touches none of them. -/
theorem stepRunsTheDecodedInstruction : Obligations.StepRunsTheDecodedInstruction := by
  intro s i rest hnext hrun hpc hdec
  rw [step_of_nextEvent_cycle hnext]
  exact State.cycle_of_decodeWord (s := s.dropEvent) hrun (State.fetch_ok hpc)
    (decodeWord_of_decode_pair hdec)

/-- Settles O7: `State.fetch_ok` and `State.fetch_error` split at `PC + 2 = 4096`. -/
theorem fetchIsBigEndianAndRangeChecked : Obligations.FetchIsBigEndianAndRangeChecked := by
  refine fun s => ⟨fun hpc => ⟨_, State.fetch_ok hpc, toNat_beWord_pair ..⟩,
    fun hpc => State.fetch_error hpc.not_ge, fun hpc hnext hrun => ?_⟩
  rw [step_of_nextEvent_cycle hnext]
  exact State.cycle_of_fetch_error (s := s.dropEvent) hrun (State.fetch_error hpc.not_ge)

/-- Settles O9: a `Cycle` outside Running leaves the state it is delivered to. -/
theorem cycleOutsideRunningChangesNothing : Obligations.CycleOutsideRunningChangesNothing := by
  intro s hnext hstate
  rw [step_of_nextEvent_cycle hnext]
  refine State.cycle_of_not_running (s := s.dropEvent) ?_
  obtain h | h := hstate <;> simp [h]

end Sys2Proof.Machine
end

section
/-! What an instruction does to `run_state`, and the instructions that stand still (spec/40_cycle.md R96,
R97, R100). -/

namespace Sys2Proof.Machine

variable {s t : State} {i : Instr}

/-- An instruction faults, or leaves the fault registers and does not halt a running core (R97, R204). -/
theorem Effect.completes_or_faults (h : Effect s i t) (hrun : s.runState = .running) :
    (t.runState ≠ .halted ∧ t.faultCode = s.faultCode ∧ t.faultInfo = s.faultInfo) ∨
    ∃ code info, code ≠ .none ∧ t = s.faulted code info := by
  cases h with
  | fault he => exact .inr ⟨_, _, he.code_ne_none, rfl⟩
  | wait x => exact .inl ⟨nofun, rfl, rfl⟩
  | _ => exact .inl ⟨ne_of_eq_of_ne hrun nofun, rfl, rfl⟩

/-- Settles O10: `Effect.completes_or_faults`. -/
theorem faultDiscardsTheWholeInstruction : Obligations.FaultDiscardsTheWholeInstruction :=
  fun _ _ _ hrun hexec => (exec_effect hexec).completes_or_faults hrun

theorem Effect.halted_iff (h : Effect s i t) (hrun : s.runState = .running) :
    t.runState = .halted ↔ ∃ code info, code ≠ .none ∧ t = s.faulted code info := by
  refine ⟨fun ht => (h.completes_or_faults hrun).resolve_left fun hc => hc.1 ht, ?_⟩
  rintro ⟨code, info, -, rfl⟩
  rfl

/-- A running core waits after `Fx0A` and after no other instruction (R185). -/
theorem waitingForKey_iff_of_exec (h : exec i s = .next t) (hrun : s.runState = .running) :
    t.runState = .waitingForKey ↔ ∃ x, i = .ldVxK x := by
  constructor
  · intro ht
    obtain hi | ⟨code, info, -, rfl⟩ := (exec_effect h).runState_writer (by simp [ht, hrun])
    · exact hi
    · cases ht
  · rintro ⟨x, rfl⟩
    cases h
    rfl

/-! ### The jump to itself -/

theorem toNat_addrImm (nnn : Addr12) : (addrImm nnn).toNat = nnn.toNat := by
  simp only [addrImm, BitVec.toNat_setWidth]
  omega

theorem toNat_indexedTarget (b : Byte) (nnn : Addr12) :
    (indexedTarget b nnn).toNat = b.toNat + nnn.toNat := by
  simp only [indexedTarget, byteWord, addrImm, BitVec.toNat_add, BitVec.toNat_setWidth]
  omega

theorem State.setPc_eq_self_iff {w : Word} : s.setPc w = s ↔ w.toNat = s.pc.toNat :=
  ⟨fun h => congrArg (·.pc.toNat) h, fun h => by rw [BitVec.eq_of_toNat_eq h]; rfl⟩

theorem State.pc_advance_ne (s : State) : s.advance.pc ≠ s.pc := by
  simp

theorem State.pc_skipIf_ne (c : Bool) : (s.skipIf c).pc ≠ s.pc := by
  cases c <;> simp

/-- Every instruction but the two jumps moves `PC` on, moves `SP` or leaves Running. -/
theorem Effect.jump_of_eq_self (h : Effect s i t) (hrun : s.runState = .running) (ht : t = s) :
    ∃ nnn, i = .jp nnn ∨ i = .jpV0 nnn := by
  cases h with
  | jump nnn => exact ⟨nnn, .inl rfl⟩
  | jumpV0 nnn => exact ⟨nnn, .inr rfl⟩
  | fault | wait => exact nomatch hrun.symm.trans (congrArg State.runState ht).symm
  | skip hi c => exact absurd (congrArg State.pc ht) (State.pc_skipIf_ne c)
  | call nnn hsp =>
    have hval : (s.sp + 1).val = s.sp.val := congrArg (·.sp.val) ht
    rw [val_sp_add_one hsp] at hval
    omega
  | ret hsp =>
    have hsub : s.sp - 1 = s.sp := congrArg State.sp ht
    simp at hsub
  | _ => exact absurd (congrArg State.pc ht) s.pc_advance_ne

@[simp] theorem exec_jp (nnn : Addr12) : exec (.jp nnn) s = .next (s.setPc (addrImm nnn)) := rfl

@[simp] theorem exec_jpV0 (nnn : Addr12) :
    exec (.jpV0 nnn) s = .next (s.setPc (indexedTarget (s.reg 0) nnn)) := rfl

theorem exec_jp_eq_self_iff {nnn : Addr12} :
    exec (.jp nnn) s = .next s ↔ nnn.toNat = s.pc.toNat := by
  rw [exec_jp, Host.Outcome.next.injEq, State.setPc_eq_self_iff, toNat_addrImm]

theorem exec_jpV0_eq_self_iff {nnn : Addr12} :
    exec (.jpV0 nnn) s = .next s ↔ (s.reg 0).toNat + nnn.toNat = s.pc.toNat := by
  rw [exec_jpV0, Host.Outcome.next.injEq, State.setPc_eq_self_iff, toNat_indexedTarget]

/-- Settles O13: only a jump can stand still, and each does exactly when its target is `PC`. -/
theorem onlyAJumpToItselfStandsStill : Obligations.OnlyAJumpToItselfStandsStill := by
  intro i s hrun
  constructor
  · intro h
    obtain ⟨nnn, rfl | rfl⟩ := (exec_effect h).jump_of_eq_self hrun rfl
    · exact .inl ⟨nnn, rfl, exec_jp_eq_self_iff.mp h⟩
    · exact .inr ⟨nnn, rfl, exec_jpV0_eq_self_iff.mp h⟩
  · rintro (⟨nnn, rfl, hpc⟩ | ⟨nnn, rfl, hpc⟩)
    · exact exec_jp_eq_self_iff.mpr hpc
    · exact exec_jpV0_eq_self_iff.mpr hpc

end Sys2Proof.Machine
end

section
/-! Every transition of `run_state` (spec/40_cycle.md R90), event by event, and what halts the core. -/

namespace Sys2Proof.Machine

variable {s t : State} {e : HostEvent}

theorem State.runState_tick (s : State) : s.tick.runState = s.runState := by
  unfold State.tick
  split <;> rfl

theorem State.runState_keyDown (s : State) (k : Key) :
    (s.keyDown k).runState = if s.runState = .waitingForKey then .running else s.runState := by
  unfold State.keyDown
  split
  · next hs => simp [hs]
  · next hs => simp [hs, State.completeWait]
  · next hs => simp [hs]

theorem State.runState_quit (s : State) : s.quit.runState = .halted := by
  unfold State.quit
  split
  · rfl
  · rfl
  · assumption

theorem State.loadProgram_of_not_running (hrun : s.runState ≠ .running) (bytes : List Byte) :
    s.loadProgram bytes = s := by
  unfold State.loadProgram
  split
  · exact absurd ‹_› hrun
  · rfl
  · rfl

/-- A program that does not fit halts a running core (R246). -/
theorem State.loadProgram_of_not_fits {bytes : List Byte} (hrun : s.runState = .running)
    (hfit : ¬ 0x200 + bytes.length ≤ 4096) :
    s.loadProgram bytes = s.takeFault (outOfRange Config.progBase) := by
  have hne : bytes ≠ [] := by
    rintro rfl
    simp at hfit
  have hwrite : s.memWrite Config.progBase bytes = _ := State.memWrite_error hfit
  simp only [State.loadProgram, hrun, if_neg hne, hwrite]

theorem State.runState_loadProgram_of_fits {bytes : List Byte} (hfit : 0x200 + bytes.length ≤ 4096) :
    (s.loadProgram bytes).runState = s.runState := by
  have hwrite : s.memWrite Config.progBase bytes = _ := State.memWrite_ok hfit
  unfold State.loadProgram
  rw [hwrite]
  split
  · split <;> rfl
  · rfl
  · rfl

theorem State.runState_loadProgram (s : State) (bytes : List Byte) :
    (s.loadProgram bytes).runState =
      if s.runState = .running ∧ 0x200 + bytes.length > 4096 then .halted else s.runState := by
  split
  · next h => rw [State.loadProgram_of_not_fits h.1 h.2.not_ge]; rfl
  · next h =>
    by_cases hrun : s.runState = .running
    · exact State.runState_loadProgram_of_fits (not_lt.mp fun hlt => h ⟨hrun, hlt⟩)
    · rw [State.loadProgram_of_not_running hrun]

/-! ### The `Cycle` -/

/-- Why a `Cycle` in Running halts the core: the fetch, the decoder or the instruction (R98). -/
theorem State.halted_iff_of_cycle (h : s.cycle = .next t) (hrun : s.runState = .running) :
    t.runState = .halted ↔
      4096 < s.pc.toNat + 2 ∨
      ∃ op, s.fetch = .ok op ∧
        (decodeWord op = .error (.unimplementedOpcode op) ∨
          ∃ i code info, decodeWord op = .ok i ∧ code ≠ .none ∧
            exec i s = .next (s.faulted code info)) := by
  obtain ⟨hr, -⟩ | ⟨-, e, hfetch, heq⟩ | ⟨-, op, r, hfetch, hdec, heq⟩ |
    ⟨-, op, i, hfetch, hdec, heq⟩ := State.cycle_cases s
  · exact absurd hrun hr
  · cases heq.symm.trans h
    refine iff_of_true rfl (.inl (lt_of_not_ge fun hpc => ?_))
    rw [State.fetch_ok hpc] at hfetch
    cases hfetch
  · cases heq.symm.trans h
    exact iff_of_true rfl (.inr ⟨op, hfetch, .inl (decodeWord_error hdec ▸ hdec)⟩)
  · have hexec := heq.symm.trans h
    rw [(exec_effect hexec).halted_iff hrun]
    have hpc := State.pc_le_of_fetch hfetch
    simp [hfetch, hdec, hexec, hpc.not_gt]

theorem State.waitingForKey_iff_of_cycle (h : s.cycle = .next t) (hrun : s.runState = .running) :
    t.runState = .waitingForKey ↔
      ∃ op x, s.fetch = .ok op ∧ decodeWord op = .ok (.ldVxK x) := by
  obtain ⟨hr, -⟩ | ⟨-, e, hfetch, heq⟩ | ⟨-, op, r, hfetch, hdec, heq⟩ |
    ⟨-, op, i, hfetch, hdec, heq⟩ := State.cycle_cases s
  · exact absurd hrun hr
  · cases heq.symm.trans h
    simp [hfetch]
  · cases heq.symm.trans h
    simp [hfetch, hdec]
  · rw [waitingForKey_iff_of_exec (heq.symm.trans h) hrun]
    simp [hfetch, hdec]

/-- Settles O15: each event has its own lemma, and a `Cycle` in Running one for each state it can end in. -/
theorem runStateTransitions : Obligations.RunStateTransitions := by
  intro s t e h
  refine ⟨?reset, ?tick, ?keyUp, ?keyDown, ?quit, ?loadProgram, ?idle, ?cycle⟩
  case reset => rintro rfl; cases h; rfl
  case tick => rintro rfl; cases h; exact s.runState_tick
  case keyUp => rintro k rfl; cases h; rfl
  case keyDown => rintro k rfl; cases h; exact s.runState_keyDown k
  case quit => rintro rfl; cases h; exact s.runState_quit
  case loadProgram => rintro bytes rfl; cases h; exact s.runState_loadProgram bytes
  case idle =>
    rintro rfl hrun
    cases (State.cycle_of_not_running hrun).symm.trans h
    rfl
  case cycle =>
    rintro rfl hrun
    exact ⟨State.halted_iff_of_cycle h hrun, State.waitingForKey_iff_of_cycle h hrun⟩

/-! ### A halt by anything but `Quit` records a failure -/

theorem State.faultCode_ne_none_of_cycle (h : s.cycle = .next t) (hs : s.runState ≠ .halted)
    (ht : t.runState = .halted) : t.faultCode ≠ .none := by
  obtain ⟨-, heq⟩ | ⟨-, e, hfetch, heq⟩ | ⟨-, op, r, -, -, heq⟩ | ⟨hrun, op, i, -, -, heq⟩ :=
    State.cycle_cases s
  · cases heq.symm.trans h
    exact absurd ht hs
  · cases heq.symm.trans h
    simp [State.raise_of_fetch hfetch, outOfRange]
  · cases heq.symm.trans h
    simp
  · obtain ⟨code, info, hcode, rfl⟩ := ((exec_effect (heq.symm.trans h)).halted_iff hrun).mp ht
    exact hcode

theorem State.faultCode_ne_none_of_loadProgram {bytes : List Byte} (hs : s.runState ≠ .halted)
    (ht : (s.loadProgram bytes).runState = .halted) : (s.loadProgram bytes).faultCode ≠ .none := by
  rw [State.runState_loadProgram] at ht
  split at ht
  · next h => rw [State.loadProgram_of_not_fits h.1 h.2.not_ge]; nofun
  · exact absurd ht hs

/-- A core that was not halted halts without a fault by `Quit` only (R100, D20). -/
theorem State.eq_quit_of_cleanEnd (h : s.deliver e = .next t) (hs : s.runState ≠ .halted)
    (hend : t.cleanEnd) : e = .quit := by
  obtain ⟨ht, hcode⟩ := hend
  cases e with
  | quit => rfl
  | reset => cases h; cases ht
  | tick => cases h; exact absurd (s.runState_tick.symm.trans ht) hs
  | keyUp k => cases h; exact absurd ht hs
  | keyDown k =>
    cases h
    rw [State.runState_keyDown] at ht
    split at ht
    · cases ht
    · exact absurd ht hs
  | loadProgram bytes => cases h; exact absurd hcode (State.faultCode_ne_none_of_loadProgram hs ht)
  | cycle => exact absurd hcode (State.faultCode_ne_none_of_cycle h hs ht)

/-- Settles O17: the step delivers the next event, and taking it from the list halts nothing. -/
theorem aCleanEndComesOnlyByQuit : Obligations.ACleanEndComesOnlyByQuit :=
  fun s _ hs hstep => State.eq_quit_of_cleanEnd (s := s.dropEvent) hstep hs

end Sys2Proof.Machine
end

section
/-! The frame of an instruction (`Unchanged`) under the operations that build its next state, and the
encoding of an instruction as its row of the opcode table gives it (spec/30_encoding.md R73). -/

namespace Sys2Proof.Machine

variable {s t : State} {w : Touched}

theorem encodedAs_row (i : Instr) : EncodedAs i i.row.matchBits i.row.mask :=
  ⟨beq_iff_eq.mp (row_selectedBy_encodeWord i), decodeWord_encodeWord i⟩

theorem Unchanged.refl (w : Touched) (s : State) : Unchanged w s s where
  regs _ _ := rfl
  index _ := rfl
  delayTimer _ := rfl
  soundTimer _ := rfl
  stack _ := ⟨rfl, fun _ => rfl⟩
  mem _ _ := rfl
  screen _ _ _ := rfl
  keys := rfl
  wait _ := ⟨rfl, rfl⟩
  faults := ⟨rfl, rfl⟩
  draws _ := rfl
  model := ⟨rfl, rfl⟩

/-- `PC` is in no frame. -/
theorem Unchanged.setPc (h : Unchanged w s t) (pc : Word) : Unchanged w s (t.setPc pc) := { h with }

theorem Unchanged.setStack (h : Unchanged w s t) (hw : w.stack = true) (cells : Vector Word 16)
    (sp : Fin 17) : Unchanged w s (t.setStack cells sp) :=
  { h with stack := fun hf => nomatch hw.symm.trans hf }

end Sys2Proof.Machine
end

section
/-! Jump, call and return (spec/41_flow.md): the four handlers case by case, and the return that undoes a
call. -/

namespace Sys2Proof.Machine

variable {s : State} {nnn : Addr12}

theorem State.takeFault_eq_faulted (s : State) (e : Raise) : s.takeFault e = s.faulted e.code e.info :=
  rfl

/-! ### Jumps (R111, R113) -/

/-- Settles O27: `exec_jp`, with the target as a number by `toNat_addrImm`. -/
theorem jumpSetsPc : Obligations.JumpSetsPc := fun nnn s =>
  ⟨encodedAs_row (.jp nnn), _, exec_jp nnn, toNat_addrImm nnn, (Unchanged.refl _ s).setPc _⟩

/-- Settles O28: `exec_jpV0`; the sum stays below 65536, so it is the number itself. -/
theorem jumpV0AddsRegisterZero : Obligations.JumpV0AddsRegisterZero := fun nnn s =>
  ⟨encodedAs_row (.jpV0 nnn), _, exec_jpV0 nnn, toNat_indexedTarget (s.reg 0) nnn,
    (Unchanged.refl _ s).setPc _⟩

/-! ### Call (R112) -/

theorem exec_call_of_lt (h : s.sp.val < s.cfg.stackDepth) :
    exec (.call nnn) s = .next
      ((s.setStack (s.stack.setIfInBounds s.sp.val (s.pc + 2)) (s.sp + 1)).setPc (addrImm nnn)) := by
  simp [exec, execCall, State.push, h]

theorem exec_call_of_full (h : s.cfg.stackDepth ≤ s.sp.val) :
    exec (.call nnn) s = .next (s.faulted .stackOverflow (BitVec.ofNat 16 s.sp.val)) := by
  simp [exec, execCall, State.push, h.not_gt, State.takeFault_eq_faulted]

/-- The cells after a push at `sp` (R31). -/
theorem getElem_pushed (cells : Vector Word 16) (sp : Nat) (pushed : Word) (k : Fin 16) :
    (cells.setIfInBounds sp pushed)[k] = if k.val = sp then pushed else cells[k] := by
  simp only [Fin.getElem_fin, Vector.getElem_setIfInBounds, eq_comm]

/-- Settles O29: `exec_call_of_lt` and `exec_call_of_full` split at `SP = STACK_DEPTH`. -/
theorem callPushesTheReturnAddress : Obligations.CallPushesTheReturnAddress := fun nnn s =>
  ⟨encodedAs_row (.call nnn),
    fun hroom => ⟨_, exec_call_of_lt hroom, toNat_addrImm nnn, val_sp_add_one hroom,
      getElem_pushed s.stack s.sp.val (s.pc + 2),
      ((Unchanged.refl _ s).setStack rfl _ _).setPc _⟩,
    fun hfull => exec_call_of_full hfull.ge⟩

/-! ### Return (R110) -/

theorem exec_ret_of_ne_zero (h : s.sp ≠ 0) :
    exec .ret s = .next ((s.setStack s.stack (s.sp - 1)).setPc s.top) := by
  simp [exec, execRet, State.pop, h]

theorem exec_ret_of_eq_zero (h : s.sp = 0) : exec .ret s = .next (s.faulted .stackUnderflow 0) := by
  simp [exec, execRet, State.pop, h, State.takeFault_eq_faulted]

theorem State.top_eq_getElem {k : Fin 16} (h : k.val = s.sp.val - 1) : s.top = s.stack[k] := by
  simp only [State.top, Fin.getElem_fin, h]

/-- Settles O30: `exec_ret_of_ne_zero` and `exec_ret_of_eq_zero` split at `SP = 0`. -/
theorem returnPopsTheNewestAddress : Obligations.ReturnPopsTheNewestAddress := by
  refine fun s => ⟨encodedAs_row .ret, fun hpos => ?_, fun hempty => ?_⟩
  · have hsp : s.sp ≠ 0 := Fin.val_ne_zero_iff.mp hpos.ne'
    exact ⟨_, exec_ret_of_ne_zero hsp, fun _ => State.top_eq_getElem, Fin.val_sub_one_of_ne_zero hsp,
      fun _ => rfl, ((Unchanged.refl _ s).setStack rfl _ _).setPc _⟩
  · exact exec_ret_of_eq_zero (Fin.val_eq_zero_iff.mp hempty)

/-! ### Return after call (the document's property S6) -/

/-- With the stack as the call left it, the newest return address is the one it pushed. -/
theorem State.top_after_push {u : State} {pushed : Word} (hroom : s.sp.val < s.cfg.stackDepth)
    (hstack : u.stack = s.stack.setIfInBounds s.sp.val pushed) (hsp : u.sp = s.sp + 1) :
    u.top = pushed := by
  have hlt : s.sp.val < 16 := hroom.trans_le (stackDepth_le s.cfg)
  have hk : s.sp.val = u.sp.val - 1 := by rw [hsp, val_sp_add_one hroom, Nat.add_sub_cancel]
  rw [State.top_eq_getElem (k := ⟨s.sp.val, hlt⟩) hk, hstack, getElem_pushed, if_pos rfl]

/-- Settles O31: the return pops the cell the call wrote, and takes back its step of `SP`. -/
theorem returnAfterCallComesBack : Obligations.ReturnAfterCallComesBack := by
  intro nnn s t u hroom hcall hstack hsp
  cases (exec_call_of_lt hroom).symm.trans hcall
  have hne : u.sp ≠ 0 := by
    rw [hsp, ← Fin.val_ne_zero_iff]
    exact (val_sp_add_one hroom).trans_ne (Nat.succ_ne_zero _)
  refine ⟨_, exec_ret_of_ne_zero hne, State.top_after_push hroom hstack hsp, ?_⟩
  calc u.sp - 1 = s.sp + 1 - 1 := congrArg (· - 1) hsp
    _ = s.sp := add_sub_cancel_right _ _

end Sys2Proof.Machine
end

section
/-! Compare and skip (spec/42_skip.md): each of the four instructions is `State.skipIf` of its condition, and
a word of class 5 or 9 is one of them only with its whole pattern. -/

namespace Sys2Proof.Machine

variable {s : State} {i : Instr} {x y : Reg} {nn : Byte}

/-! ### The four instructions as `State.skipIf` (R120 to R123) -/

@[simp] theorem exec_seByte : exec (.seByte x nn) s = .next (s.skipIf (s.reg x == nn)) := rfl

@[simp] theorem exec_sneByte : exec (.sneByte x nn) s = .next (s.skipIf (s.reg x != nn)) := rfl

@[simp] theorem exec_seReg : exec (.seReg x y) s = .next (s.skipIf (s.reg x == s.reg y)) := rfl

@[simp] theorem exec_sneReg : exec (.sneReg x y) s = .next (s.skipIf (s.reg x != s.reg y)) := rfl

/-! ### What a skip does (R96, R124) -/

theorem State.pc_skipIf {c : Bool} {p : Prop} [Decidable p] (hc : c = true ↔ p) :
    (s.skipIf c).pc = s.pc + (if p then 4 else 2) :=
  congrArg (s.pc + ·) (if_congr hc rfl rfl)

theorem State.unchanged_skipIf (w : Touched) (c : Bool) : Unchanged w s (s.skipIf c) :=
  (Unchanged.refl w s).setPc _

/-- An instruction that is `State.skipIf` of a test for `p` adds 4 or 2 to `PC` and writes nothing else. -/
theorem exists_skip_of_exec {c : Bool} {p : Prop} [Decidable p] (hexec : exec i s = .next (s.skipIf c))
    (hc : c = true ↔ p) :
    ∃ t, exec i s = .next t ∧ t.pc = s.pc + (if p then 4 else 2) ∧ Unchanged {} s t :=
  ⟨_, hexec, State.pc_skipIf hc, State.unchanged_skipIf _ c⟩

/-- Settles O32: both instructions are skips, on `==` and on `!=` of the register and the immediate. -/
theorem immediateSkipsAddTwoOrFour : Obligations.ImmediateSkipsAddTwoOrFour :=
  ⟨fun x nn _ => ⟨encodedAs_row (.seByte x nn), exists_skip_of_exec exec_seByte beq_iff_eq⟩,
    fun x nn _ => ⟨encodedAs_row (.sneByte x nn), exists_skip_of_exec exec_sneByte bne_iff_ne⟩⟩

/-- The whole pattern of `5xy0` and `9xy0` must match (R75, the spec's D2). -/
theorem decodeWord_error_of_class5_or_class9 {w : Word}
    (hclass : w.toNat / 4096 = 5 ∨ w.toNat / 4096 = 9) (hlow : w.toNat % 16 ≠ 0) :
    decodeWord w = .error (.unimplementedOpcode w) := by
  rw [unimplementedWordsByClass w]
  rcases hclass with h5 | h9
  · exact .inr (.inl ⟨h5, hlow⟩)
  · exact .inr (.inr (.inr (.inl ⟨h9, hlow⟩)))

/-- Settles O33: both instructions are skips, on `==` and on `!=` of the two registers; the rejected words
are among those of `unimplementedWordsByClass`. -/
theorem registerSkipsAddTwoOrFour : Obligations.RegisterSkipsAddTwoOrFour :=
  ⟨fun x y _ => ⟨encodedAs_row (.seReg x y), exists_skip_of_exec exec_seReg beq_iff_eq⟩,
    fun x y _ => ⟨encodedAs_row (.sneReg x y), exists_skip_of_exec exec_sneReg bne_iff_ne⟩,
    fun _ => decodeWord_error_of_class5_or_class9⟩

end Sys2Proof.Machine
end

section
/-! Registers and ALU (spec/43_alu.md): each instruction writes a result, or a flag and then a result, or a
masked draw; what the three ends leave in the registers and in the frame is said once. -/

namespace Sys2Proof.Machine

variable {s t : State} {i : Instr} {x y : Reg} {nn : Byte} {w : Touched}

/-! ### The instructions by the operation that ends them -/

@[simp] theorem exec_ldByte : exec (.ldByte x nn) s = .next (s.setReg x nn).advance := rfl

@[simp] theorem exec_addByte : exec (.addByte x nn) s = .next (s.setReg x (s.reg x + nn)).advance := rfl

@[simp] theorem exec_ldReg : exec (.ldReg x y) s = .next (s.setReg x (s.reg y)).advance := rfl

@[simp] theorem exec_orReg :
    exec (.orReg x y) s = .next (s.setReg x (s.reg x ||| s.reg y)).advance := rfl

@[simp] theorem exec_andReg :
    exec (.andReg x y) s = .next (s.setReg x (s.reg x &&& s.reg y)).advance := rfl

@[simp] theorem exec_xorReg :
    exec (.xorReg x y) s = .next (s.setReg x (s.reg x ^^^ s.reg y)).advance := rfl

@[simp] theorem exec_addReg : exec (.addReg x y) s =
    .next (s.setFlagThenReg (carryOut (s.reg x) (s.reg y)) x (s.reg x + s.reg y)).advance := rfl

@[simp] theorem exec_subReg : exec (.subReg x y) s =
    .next (s.setFlagThenReg (noBorrow (s.reg x) (s.reg y)) x (s.reg x - s.reg y)).advance := rfl

@[simp] theorem exec_subnReg : exec (.subnReg x y) s =
    .next (s.setFlagThenReg (noBorrow (s.reg y) (s.reg x)) x (s.reg y - s.reg x)).advance := rfl

@[simp] theorem exec_shrReg : exec (.shrReg x y) s =
    .next (s.setFlagThenReg (shiftedOutRight (s.reg y)) x (s.reg y >>> 1)).advance := rfl

@[simp] theorem exec_shlReg : exec (.shlReg x y) s =
    .next (s.setFlagThenReg (shiftedOutLeft (s.reg y)) x (s.reg y <<< 1)).advance := rfl

@[simp] theorem exec_rnd :
    exec (.rnd x nn) s = .next (s.withRandom (Config.freeRand s.draws) x nn) := rfl

/-! ### The frames of the register writes -/

theorem Unchanged.setReg (h : Unchanged w s t) (hx : x ∈ w.regs) (b : Byte) :
    Unchanged w s (t.setReg x b) :=
  { h with
    regs := fun r hr => (t.reg_setReg_other b (ne_of_mem_of_not_mem hx hr).symm).trans (h.regs r hr) }

theorem Unchanged.countDraw (h : Unchanged w s t) (hw : w.draws = true) :
    Unchanged w s t.countDraw :=
  { h with draws := fun hf => nomatch hw.symm.trans hf }

theorem State.unchanged_setReg (s : State) (x : Reg) (b : Byte) :
    Unchanged { regs := [x] } s (s.setReg x b).advance :=
  ((Unchanged.refl _ s).setReg (List.mem_singleton_self x) b).setPc _

theorem State.unchanged_setFlagThenReg (s : State) (c : Bool) (x : Reg) (b : Byte) :
    Unchanged { regs := [x, 15] } s (s.setFlagThenReg c x b).advance :=
  have hflag : Unchanged { regs := [x, 15] } s (s.setFlag c) :=
    (Unchanged.refl _ s).setReg (List.mem_cons_of_mem x (List.mem_singleton_self regVF)) (flagByte c)
  (hflag.setReg List.mem_cons_self b).setPc _

/-! ### A result and no flag (R130 to R135, the spec's D27) -/

/-- An instruction that ends in a result writes that register, adds 2 to `PC` and leaves the rest. -/
theorem exists_result_of_exec {b : Byte} (hexec : exec i s = .next (s.setReg x b).advance) :
    ∃ t, exec i s = .next t ∧ t.reg x = b ∧ t.pc = s.pc + 2 ∧ Unchanged { regs := [x] } s t :=
  ⟨_, hexec, s.reg_setReg_same x b, rfl, s.unchanged_setReg x b⟩

/-- The result of a logic instruction, bit by bit. -/
theorem exists_bits_of_exec {b : Byte} {bit : Bool → Bool → Bool}
    (hexec : exec i s = .next (s.setReg x b).advance)
    (hbit : ∀ k, b.getLsbD k = bit ((s.reg x).getLsbD k) ((s.reg y).getLsbD k)) :
    ∃ t, exec i s = .next t ∧ t.pc = s.pc + 2 ∧ Unchanged { regs := [x] } s t ∧
      ∀ k : Nat, (t.reg x).getLsbD k = bit ((s.reg x).getLsbD k) ((s.reg y).getLsbD k) := by
  obtain ⟨t, ht, hresult, hpc, hframe⟩ := exists_result_of_exec hexec
  exact ⟨t, ht, hpc, hframe, hresult ▸ hbit⟩

/-- Settles O35: both instructions end in a result, the immediate or the register read. -/
theorem loadImmediateAndCopyRegister : Obligations.LoadImmediateAndCopyRegister :=
  ⟨fun x nn _ => ⟨encodedAs_row (.ldByte x nn), exists_result_of_exec exec_ldByte⟩,
    fun x y _ => ⟨encodedAs_row (.ldReg x y), exists_result_of_exec exec_ldReg⟩⟩

theorem exists_sum_of_exec_addByte (x : Reg) (nn : Byte) (s : State) :
    ∃ t, exec (.addByte x nn) s = .next t ∧
      (t.reg x).toNat = ((s.reg x).toNat + nn.toNat) % 256 ∧ t.pc = s.pc + 2 ∧
      Unchanged { regs := [x] } s t := by
  obtain ⟨t, ht, hresult, hpc, hframe⟩ := exists_result_of_exec (exec_addByte (s := s) (x := x) (nn := nn))
  exact ⟨t, ht, hresult ▸ BitVec.toNat_add .., hpc, hframe⟩

/-- Settles O36: the sum as a number, and each logic instruction by its operation on one bit. -/
theorem addImmediateAndLogicWriteNoFlag : Obligations.AddImmediateAndLogicWriteNoFlag :=
  ⟨fun x nn s => ⟨encodedAs_row (.addByte x nn), exists_sum_of_exec_addByte x nn s⟩,
    fun x y _ => ⟨encodedAs_row (.orReg x y), exists_bits_of_exec exec_orReg fun _ => BitVec.getLsbD_or⟩,
    fun x y _ => ⟨encodedAs_row (.andReg x y), exists_bits_of_exec exec_andReg fun _ => BitVec.getLsbD_and⟩,
    fun x y _ => ⟨encodedAs_row (.xorReg x y), exists_bits_of_exec exec_xorReg fun _ => BitVec.getLsbD_xor⟩⟩

/-! ### A flag and then a result (R136 to R140, R148) -/

/-- An instruction that ends in a flag and a result leaves the result in `V[x]`, whatever `x` is, and the
flag in `VF` unless the result went there (the spec's D3). -/
theorem exists_flagResult_of_exec {c : Bool} {b : Byte} {n : Nat} (flag : Byte → Prop)
    (hexec : exec i s = .next (s.setFlagThenReg c x b).advance) (hresult : b.toNat = n)
    (hflag : flag (flagByte c)) :
    ∃ t, exec i s = .next t ∧ (t.reg x).toNat = n ∧ (x ≠ 15 → flag (t.reg 15)) ∧
      t.pc = s.pc + 2 ∧ Unchanged { regs := [x, 15] } s t := by
  refine ⟨_, hexec, ?_, fun hx => ?_, rfl, s.unchanged_setFlagThenReg c x b⟩
  · exact (congrArg BitVec.toNat ((s.setFlag c).reg_setReg_same x b)).trans hresult
  · have hkept := State.flag_of_flagResult (mt Option.some.inj hx) (rfl : s.flagResult c x b = _)
    exact hkept.symm ▸ hflag

theorem flagByte_carryOut (a b : Byte) :
    flagByte (carryOut a b) = if a.toNat + b.toNat > 255 then 1 else 0 :=
  if_congr decide_eq_true_iff rfl rfl

/-- Settles O37: the sum and its carry, flag first and result second. -/
theorem addRegistersWritesSumAndCarry : Obligations.AddRegistersWritesSumAndCarry := fun x y _ =>
  ⟨encodedAs_row (.addReg x y),
    exists_flagResult_of_exec (· = _) exec_addReg (BitVec.toNat_add ..) (flagByte_carryOut ..)⟩

theorem toNat_sub_byte (a b : Byte) : (a - b).toNat = (a.toNat + 256 - b.toNat) % 256 := by
  rw [BitVec.toNat_sub]
  omega

theorem flagByte_noBorrow (a b : Byte) :
    flagByte (noBorrow a b) = if a.toNat ≥ b.toNat then 1 else 0 :=
  if_congr decide_eq_true_iff rfl rfl

/-- Settles O38: one difference and its no-borrow flag, with the operands in either order. -/
theorem subtractsWriteDifferenceAndNoBorrow : Obligations.SubtractsWriteDifferenceAndNoBorrow :=
  ⟨fun x y _ => ⟨encodedAs_row (.subReg x y),
      exists_flagResult_of_exec (· = _) exec_subReg (toNat_sub_byte ..) (flagByte_noBorrow ..)⟩,
    fun x y _ => ⟨encodedAs_row (.subnReg x y),
      exists_flagResult_of_exec (· = _) exec_subnReg (toNat_sub_byte ..) (flagByte_noBorrow ..)⟩⟩

@[simp] theorem toNat_flagByte (c : Bool) : (flagByte c).toNat = c.toNat := by
  cases c <;> rfl

theorem toNat_shiftRight_one (b : Byte) : (b >>> 1).toNat = b.toNat / 2 := by
  rw [BitVec.toNat_ushiftRight, Nat.shiftRight_one]

theorem toNat_shiftLeft_one (b : Byte) : (b <<< 1).toNat = b.toNat * 2 % 256 := by
  rw [BitVec.toNat_shiftLeft, Nat.shiftLeft_eq]

theorem toNat_shiftedOutRight (b : Byte) : (flagByte (shiftedOutRight b)).toNat = b.toNat % 2 := by
  rw [toNat_flagByte, shiftedOutRight, BitVec.getLsbD, Nat.toNat_testBit, Nat.pow_zero, Nat.div_one]

theorem toNat_shiftedOutLeft (b : Byte) : (flagByte (shiftedOutLeft b)).toNat = b.toNat / 128 := by
  rw [toNat_flagByte, shiftedOutLeft, BitVec.getLsbD, Nat.toNat_testBit]
  omega

/-- Settles O39: the shifted `V[y]` as a number, and the bit shifted out as one. -/
theorem shiftsTakeVyAndReportTheBitShiftedOut : Obligations.ShiftsTakeVyAndReportTheBitShiftedOut :=
  ⟨fun x y _ => ⟨encodedAs_row (.shrReg x y),
      exists_flagResult_of_exec (·.toNat = _) exec_shrReg (toNat_shiftRight_one _) (toNat_shiftedOutRight _)⟩,
    fun x y _ => ⟨encodedAs_row (.shlReg x y),
      exists_flagResult_of_exec (·.toNat = _) exec_shlReg (toNat_shiftLeft_one _) (toNat_shiftedOutLeft _)⟩⟩

/-! ### A masked draw (R145, the spec's D22) -/

theorem State.reg_withRandom (s : State) (rand : Byte) (x : Reg) (nn : Byte) :
    (s.withRandom rand x nn).reg x = rand &&& nn :=
  s.reg_setReg_same x (rand &&& nn)

theorem State.unchanged_withRandom (s : State) (rand : Byte) (x : Reg) (nn : Byte) :
    Unchanged { regs := [x], draws := true } s (s.withRandom rand x nn) :=
  (((Unchanged.refl _ s).setReg (List.mem_singleton_self x) _).setPc _).countDraw rfl

/-- Settles O40: `exec_rnd`, with the masked draw bit by bit. -/
theorem randomIsAMaskedFreshDraw : Obligations.RandomIsAMaskedFreshDraw := fun x nn s => by
  refine ⟨encodedAs_row (.rnd x nn), _, exec_rnd, rfl, rfl, s.unchanged_withRandom _ x nn, fun k => ?_⟩
  rw [State.reg_withRandom, BitVec.getLsbD_and, Bool.and_comm]

end Sys2Proof.Machine
end

section
/-! Index register and memory (spec/44_index_memory.md): the three writes of `I`, the stores `Fx33` and
`Fx55` as bytes stored at `I`, the block load `Fx65`, and the load that undoes a store. -/

namespace Sys2Proof.Machine

variable {s t : State} {i : Instr} {x : Reg} {nnn : Addr12} {w : Touched}

/-! ### Writes of `I` (R150 to R152) -/

@[simp] theorem exec_ldI : exec (.ldI nnn) s = .next (s.setI (addrImm nnn)).advance := rfl

@[simp] theorem exec_addIVx :
    exec (.addIVx x) s = .next (s.setI (s.i + byteWord (s.reg x))).advance := rfl

@[simp] theorem exec_ldFVx : exec (.ldFVx x) s = .next (s.setI (glyphAddr (s.reg x))).advance := rfl

theorem Unchanged.setI (h : Unchanged w s t) (hw : w.index = true) (a : Word) :
    Unchanged w s (t.setI a) :=
  { h with index := fun hf => nomatch hw.symm.trans hf }

/-- An instruction that ends in a write of `I` adds 2 to `PC` and leaves the rest. -/
theorem exists_index_of_exec {a : Word} {n : Nat} (hexec : exec i s = .next (s.setI a).advance)
    (ha : a.toNat = n) :
    ∃ t, exec i s = .next t ∧ t.i.toNat = n ∧ t.pc = s.pc + 2 ∧ Unchanged { index := true } s t :=
  ⟨_, hexec, ha, rfl, ((Unchanged.refl _ s).setI rfl a).setPc _⟩

/-- Settles O41: `exec_ldI`, with the immediate as a number by `toNat_addrImm`. -/
theorem loadIndexIsZeroExtended : Obligations.LoadIndexIsZeroExtended := fun nnn _ =>
  ⟨encodedAs_row (.ldI nnn), exists_index_of_exec exec_ldI (toNat_addrImm nnn)⟩

@[simp] theorem toNat_byteWord (b : Byte) : (byteWord b).toNat = b.toNat :=
  BitVec.toNat_setWidth_of_le (by decide)

theorem toNat_add_byteWord (a : Word) (b : Byte) :
    (a + byteWord b).toNat = (a.toNat + b.toNat) % 65536 := by
  rw [BitVec.toNat_add, toNat_byteWord]

/-- The glyph address of a byte is at most 0x54B, so it does not wrap (R152, the spec's D13). -/
theorem toNat_glyphAddr (b : Byte) : (glyphAddr b).toNat = 0x50 + b.toNat * 5 := by
  simp only [glyphAddr, Config.fontBase, BitVec.toNat_add, BitVec.toNat_mul, toNat_byteWord,
    BitVec.ofNat_eq_ofNat, BitVec.toNat_ofNat]
  omega

/-- Settles O42: both instructions write `I`, with the value as a number. -/
theorem indexAddAndGlyphAddress : Obligations.IndexAddAndGlyphAddress :=
  ⟨fun x _ => ⟨encodedAs_row (.addIVx x), exists_index_of_exec exec_addIVx (toNat_add_byteWord ..)⟩,
    fun x _ => ⟨encodedAs_row (.ldFVx x), exists_index_of_exec exec_ldFVx (toNat_glyphAddr _)⟩⟩

/-! ### Stores at `I` (R153, R154) -/

@[simp] theorem exec_ldBVx : exec (.ldBVx x) s = s.storeAtI (bcdDigits (s.reg x)) := rfl

@[simp] theorem exec_ldMemVx : exec (.ldMemVx x) s = s.storeAtI (s.regsUpTo x) := rfl

theorem Unchanged.setMem (h : Unchanged w s t) {m : Memory}
    (hm : ∀ a, a < w.memFrom ∨ w.memFrom + w.memLen ≤ a → (t.setMem m).readByte a = s.readByte a) :
    Unchanged w s (t.setMem m) :=
  { h with mem := hm }

theorem State.unchanged_of_storeAtI {bytes : List Byte} (hwf : s.memWf = true)
    (hfit : s.i.toNat + bytes.length ≤ 4096) (h : s.storeAtI bytes = .next t) :
    Unchanged { memFrom := s.i.toNat, memLen := bytes.length } s t := by
  obtain ⟨u, hstore, hu, -⟩ := State.storeAtI_spec hwf hfit
  cases hstore.symm.trans h
  have hmem : ∀ a, a < s.i.toNat ∨ s.i.toNat + bytes.length ≤ a → t.readByte a = s.readByte a :=
    fun a hout => by_contra fun hne => by
      have hin := State.range_of_readByte_ne_of_storeAtI hwf h hne
      omega
  rw [hu] at hmem ⊢
  exact ((Unchanged.refl _ s).setMem hmem).setPc _

/-- An instruction that ends in a store of `n` bytes at `I`: the bytes stored, `PC` and the frame. -/
theorem exists_store_of_exec {bytes : List Byte} {n : Nat} (hexec : exec i s = s.storeAtI bytes)
    (hn : bytes.length = n) (hwf : s.memWf = true) (hfit : s.i.toNat + n ≤ 4096) :
    ∃ t, exec i s = .next t ∧
      (∀ k (hk : k < bytes.length), t.readByte (s.i.toNat + k) = bytes[k]) ∧
      t.pc = s.pc + 2 ∧ Unchanged { memFrom := s.i.toNat, memLen := n } s t := by
  subst hn
  obtain ⟨t, hstore, ht, -, hread⟩ := State.storeAtI_spec hwf hfit
  refine ⟨t, hexec.trans hstore, fun k hk => ?_, congrArg State.pc ht,
    State.unchanged_of_storeAtI hwf hfit hstore⟩
  simp [hread, hk]

/-- The other case: the store does not fit, and the instruction faults with the datum `I` (R53, R97). -/
theorem exec_eq_faulted_of_storeAtI {bytes : List Byte} {n : Nat} (hexec : exec i s = s.storeAtI bytes)
    (hn : bytes.length = n) (hout : 4096 < s.i.toNat + n) :
    exec i s = .next (s.faulted .addressOutOfRange s.i) :=
  hexec.trans (State.storeAtI_error (hn.symm ▸ hout.not_ge))

/-- Settles O43: a store of the three digits, each as a number by `toNat_getElem_bcdDigits`. -/
theorem decimalDigitsAreStoredAtI : Obligations.DecimalDigitsAreStoredAtI := by
  refine fun x s hwf => ⟨encodedAs_row (.ldBVx x), fun hfit => ?_,
    exec_eq_faulted_of_storeAtI exec_ldBVx (length_bcdDigits _)⟩
  obtain ⟨t, hexec, hread, hpc, hframe⟩ :=
    exists_store_of_exec exec_ldBVx (length_bcdDigits (s.reg x)) hwf hfit
  have hdigit : ∀ k < 3, (t.readByte (s.i.toNat + k)).toNat = digitValue (s.reg x) k := fun k hk =>
    (congrArg BitVec.toNat (hread k hk)).trans (toNat_getElem_bcdDigits hk)
  exact ⟨t, hexec, hdigit 0 (by decide), hdigit 1 (by decide), hdigit 2 (by decide), hpc, hframe⟩

theorem State.getElem_regsUpTo {r : Reg} (hr : r.val < (s.regsUpTo x).length) :
    (s.regsUpTo x)[r.val] = s.reg r := by
  simp [State.regsUpTo, State.reg]

theorem exists_store_of_exec_ldMemVx (hwf : s.memWf = true) (hfit : s.i.toNat + x.val + 1 ≤ 4096) :
    ∃ t, exec (.ldMemVx x) s = .next t ∧
      (∀ r : Reg, r ≤ x → t.readByte (s.i.toNat + r.val) = s.reg r) ∧
      t.pc = s.pc + 2 ∧ Unchanged { memFrom := s.i.toNat, memLen := x.val + 1 } s t := by
  obtain ⟨t, hexec, hread, hpc, hframe⟩ :=
    exists_store_of_exec exec_ldMemVx (s.length_regsUpTo x) hwf hfit
  refine ⟨t, hexec, fun r hr => ?_, hpc, hframe⟩
  have hlt : r.val < (s.regsUpTo x).length := (s.length_regsUpTo x).symm ▸ Nat.lt_succ_of_le hr
  exact (hread r.val hlt).trans (State.getElem_regsUpTo hlt)

/-- Settles O44: a store of `V[0]` to `V[x]`, or its fault. -/
theorem registersAreStoredInclusively : Obligations.RegistersAreStoredInclusively := fun x s hwf =>
  ⟨encodedAs_row (.ldMemVx x), exists_store_of_exec_ldMemVx hwf,
    exec_eq_faulted_of_storeAtI exec_ldMemVx (s.length_regsUpTo x)⟩

/-! ### The block load (R155) -/

theorem exec_ldVxMem_of_le (hfit : s.i.toNat + x.val + 1 ≤ 4096) :
    exec (.ldVxMem x) s = .next (s.setRegs (writeRegs s.v 0
      (Memory.readRange s.cfg.resetByte s.mem s.i.toNat (x.val + 1)))).advance := by
  simp only [exec, execLdVxMem, State.memRead_ok (n := x.val + 1) hfit, State.commit_ok]

theorem exec_ldVxMem_of_lt (hout : 4096 < s.i.toNat + x.val + 1) :
    exec (.ldVxMem x) s = .next (s.faulted .addressOutOfRange s.i) := by
  simp only [exec, execLdVxMem, State.memRead_error (n := x.val + 1) hout.not_ge, State.commit_error,
    State.takeFault_eq_faulted, outOfRange]

/-- A register of the block load holds the byte of its place in the range. -/
theorem getElem_writeRegs_readRange (s : State) {a n : Nat} {r : Reg} (hr : r.val < n) :
    (writeRegs s.v 0 (Memory.readRange s.cfg.resetByte s.mem a n))[r] = s.readByte (a + r.val) := by
  rw [getElem_writeRegs, if_pos (Nat.zero_le _), Nat.sub_zero, Memory.getElem?_readRange, if_pos hr,
    Option.getD_some, State.readByte]

theorem Unchanged.setRegs (h : Unchanged w s t) (hw : ∀ r, r ∈ w.regs) (v : Vector Byte 16) :
    Unchanged w s (t.setRegs v) :=
  { h with regs := fun r hr => absurd (hw r) hr }

theorem exists_load_of_exec_ldVxMem (hfit : s.i.toNat + x.val + 1 ≤ 4096) :
    ∃ t, exec (.ldVxMem x) s = .next t ∧
      (∀ r : Reg, r ≤ x → t.reg r = s.readByte (s.i.toNat + r.val)) ∧
      (∀ r : Reg, x < r → t.reg r = s.reg r) ∧
      t.pc = s.pc + 2 ∧ Unchanged { regs := List.finRange 16 } s t :=
  ⟨_, exec_ldVxMem_of_le hfit, fun _ hr => getElem_writeRegs_readRange s (Nat.lt_succ_of_le hr),
    fun _ hr => getElem_writeRegs_of_length_le s.v ((Memory.length_readRange ..).trans_le hr),
    rfl, ((Unchanged.refl _ s).setRegs List.mem_finRange _).setPc _⟩

/-- Settles O45: the block load when it fits, or its fault. -/
theorem registersAreLoadedInclusively : Obligations.RegistersAreLoadedInclusively := fun x _ =>
  ⟨encodedAs_row (.ldVxMem x), exists_load_of_exec_ldVxMem, exec_ldVxMem_of_lt⟩

/-! ### Load after store (the document's property S7) -/

/-- What an address reads as is given by the memory and the parameters alone. -/
theorem State.readByte_congr {u : State} (hmem : u.mem = t.mem) (hcfg : u.cfg = t.cfg) (a : Nat) :
    u.readByte a = t.readByte a := by
  rw [State.readByte, State.readByte, hmem, hcfg]

/-- Settles O46: the load reads from the same addresses the bytes the store left there. -/
theorem storeThenLoadRestoresRegisters : Obligations.StoreThenLoadRestoresRegisters := by
  intro x s t u hwf hfit hstore hmem hcfg hi
  obtain ⟨_, hexec, hstored, -⟩ := exists_store_of_exec_ldMemVx hwf hfit
  cases hexec.symm.trans hstore
  obtain ⟨v, hload, hloaded, habove, -⟩ :=
    exists_load_of_exec_ldVxMem (s := u) (x := x) (by rwa [hi])
  refine ⟨v, hload, fun r hr => ?_, habove⟩
  calc v.reg r = u.readByte (s.i.toNat + r.val) := hi ▸ hloaded r hr
    _ = t.readByte (s.i.toNat + r.val) := State.readByte_congr hmem hcfg _
    _ = s.reg r := hstored r hr

end Sys2Proof.Machine
end

section
/-! The display (spec/45_display.md): what a drawing does to the pixels, one pixel, one row and one sprite at
a time; from it the effect of `Dxyn`, the draw that undoes a draw, and the number of pixels changed. -/

namespace Sys2Proof.Machine

variable {s t : State} {x y : Reg} {n : Rows} {w : Touched}

theorem Unchanged.setFb (h : Unchanged w s t) (hw : w.screen = true) (g : Framebuffer) :
    Unchanged w s (t.setFb g) :=
  { h with screen := fun hf => nomatch hw.symm.trans hf }

/-! ### Clear (R171) -/

@[simp] theorem exec_cls : exec .cls s = .next (s.setFb Framebuffer.clear).advance := rfl

theorem State.snapshot_of_fb_eq_clear (h : s.fb = Framebuffer.clear) :
    s.snapshot = List.replicate 32 (List.replicate 64 false) := by
  simp [State.snapshot, h, Framebuffer.clear, Vector.toList_replicate]

/-- Settles O48: `exec_cls`, pixel by pixel and as the snapshot shows it. -/
theorem clearZeroesTheWholeGrid : Obligations.ClearZeroesTheWholeGrid :=
  ⟨encodedAs_row .cls, fun s => ⟨_, exec_cls, Framebuffer.pixel_clear, State.snapshot_of_fb_eq_clear rfl,
    rfl, ((Unchanged.refl _ s).setFb rfl _).setPc _⟩⟩

/-! ### Where the bits of a sprite land (R174) -/

theorem targetRow_inj {y0 : Byte} {j k : Nat} (hj : j < 32) (hk : k < 32) :
    targetRow y0 j = targetRow y0 k ↔ j = k := by
  simp only [targetRow, Fin.mk.injEq]
  omega

theorem targetCol_inj {x0 : Byte} {i k : Nat} (hi : i < 64) (hk : k < 64) :
    targetCol x0 i = targetCol x0 k ↔ i = k := by
  simp only [targetCol, Fin.mk.injEq]
  omega

/-- A 1 bit among the first `k` columns of a row byte, drawn as row `j`, lands on pixel (r, c). -/
def RowCovers (x0 y0 rowByte : Byte) (j k : Nat) (r : Fin 32) (c : Fin 64) : Prop :=
  r = targetRow y0 j ∧ ∃ i < k, c = targetCol x0 i ∧ spriteBit rowByte i = true

/-- A 1 bit of the row bytes, the first of them drawn as row `j`, lands on pixel (r, c). -/
def RowsCover (x0 y0 : Byte) (j : Nat) (rows : List Byte) (r : Fin 32) (c : Fin 64) : Prop :=
  ∃ k rowByte, rows[k]? = some rowByte ∧ RowCovers x0 y0 rowByte (j + k) 8 r c

section Drawing
variable {x0 y0 b : Byte} {j k : Nat} {r : Fin 32} {c : Fin 64}

theorem not_rowCovers_zero : ¬ RowCovers x0 y0 b j 0 r c :=
  fun ⟨_, _, hi, _⟩ => Nat.not_lt_zero _ hi

theorem rowCovers_succ : RowCovers x0 y0 b j (k + 1) r c ↔ RowCovers x0 y0 b j k r c ∨
    r = targetRow y0 j ∧ c = targetCol x0 k ∧ spriteBit b k = true := by
  simp only [RowCovers, Nat.exists_lt_succ_right, and_or_left]

theorem not_rowsCover_nil : ¬ RowsCover x0 y0 j [] r c :=
  fun ⟨_, _, hrow, _⟩ => nomatch hrow

theorem rowsCover_cons {bs : List Byte} : RowsCover x0 y0 j (b :: bs) r c ↔
    RowCovers x0 y0 b j 8 r c ∨ RowsCover x0 y0 (j + 1) bs r c := by
  constructor
  · rintro ⟨_ | k, b', hrow, hcov⟩
    · cases hrow
      exact .inl hcov
    · exact .inr ⟨k, b', hrow, by rwa [Nat.add_right_comm]⟩
  · rintro (hcov | ⟨k, b', hrow, hcov⟩)
    · exact ⟨0, b, rfl, hcov⟩
    · exact ⟨k + 1, b', hrow, by rwa [← Nat.add_assoc, Nat.add_right_comm]⟩

theorem xor_ne_left_iff {a b : Bool} : (a ^^ b) ≠ a ↔ b = true := by
  cases a <;> cases b <;> decide

theorem eq_of_ne_iff_ne {a b c : Bool} (h : a ≠ b ↔ b ≠ c) : a = c := by
  revert a b c
  decide

/-! ### What a drawing does to the pixels (R172, R173) -/

/-- The drawing `d` differs from the framebuffer `old` in exactly the pixels of `covered`, and reports
whether one of them was on. -/
structure Flips (old : Framebuffer) (covered : Fin 32 → Fin 64 → Prop) (d : Drawing) : Prop where
  pixel : ∀ r c, d.fb.pixel r c ≠ old.pixel r c ↔ covered r c
  collision : d.collision = true ↔ ∃ r c, covered r c ∧ old.pixel r c = true

variable {old : Framebuffer} {p q : Fin 32 → Fin 64 → Prop} {d : Drawing}

theorem Flips.congr (h : Flips old p d) (hpq : ∀ r c, q r c ↔ p r c) : Flips old q d where
  pixel r c := (h.pixel r c).trans (hpq r c).symm
  collision := by simp only [h.collision, hpq]

theorem flips_start (old : Framebuffer) : Flips old (fun _ _ => False) ⟨old, false⟩ where
  pixel _ _ := iff_of_false (fun h => h rfl) id
  collision := by simp

/-- A pixel that no bit has landed on so far is flipped by a 1 bit and left by a 0 bit. -/
theorem Flips.drawPixel (h : Flips old p d) (hfresh : ¬ p (targetRow y0 j) (targetCol x0 k)) :
    Flips old (fun r c => p r c ∨ r = targetRow y0 j ∧ c = targetCol x0 k ∧ spriteBit b k = true)
      (drawPixel old x0 y0 b j k d) where
  pixel r c := by
    simp only [Machine.drawPixel, Framebuffer.pixel_setPixel]
    split
    · next hat =>
      obtain ⟨rfl, rfl⟩ := hat
      simp [hfresh, xor_ne_left_iff]
    · next hat =>
      rw [h.pixel, ← and_assoc, or_iff_left (fun hnew => hat hnew.1)]
  collision := by
    simp only [Machine.drawPixel, Bool.or_eq_true, Bool.and_eq_true, h.collision, or_and_right,
      exists_or]
    refine or_congr_right ⟨fun ⟨hwas, hbit⟩ => ⟨_, _, ⟨rfl, rfl, hbit⟩, hwas⟩, ?_⟩
    rintro ⟨_, _, ⟨rfl, rfl, hbit⟩, hwas⟩
    exact ⟨hwas, hbit⟩

/-- The first `k` columns of a row that nothing has been drawn on. -/
theorem Flips.drawCols (h : Flips old p d) (hfresh : ∀ c, ¬ p (targetRow y0 j) c) (hk : k ≤ 8) :
    Flips old (fun r c => p r c ∨ RowCovers x0 y0 b j k r c) (drawCols old x0 y0 b j k d) := by
  induction k with
  | zero => exact h.congr fun _ _ => or_iff_left not_rowCovers_zero
  | succ k ih =>
    have hnew : ¬ RowCovers x0 y0 b j k (targetRow y0 j) (targetCol x0 k) := by
      rintro ⟨-, i, hi, hcol, -⟩
      have := (targetCol_inj (by omega) (by omega)).mp hcol
      omega
    refine ((ih (by omega)).drawPixel (not_or.mpr ⟨hfresh _, hnew⟩)).congr fun r c => ?_
    rw [rowCovers_succ, or_assoc]

/-- The rows from row `j` on, on none of which anything has been drawn. -/
theorem Flips.drawRows {rows : List Byte} (h : Flips old p d)
    (hfresh : ∀ m, j ≤ m → m < 32 → ∀ c, ¬ p (targetRow y0 m) c) (hlen : j + rows.length ≤ 32) :
    Flips old (fun r c => p r c ∨ RowsCover x0 y0 j rows r c) (drawRows old x0 y0 j rows d) := by
  induction rows generalizing j p d with
  | nil => exact h.congr fun _ _ => or_iff_left not_rowsCover_nil
  | cons b bs ih =>
    rw [List.length_cons] at hlen
    have hrow := h.drawCols (x0 := x0) (b := b) (hfresh j le_rfl (by omega)) le_rfl
    refine (ih hrow (fun m hm hlt c => ?_) (by omega)).congr fun r c => ?_
    · refine not_or.mpr ⟨hfresh m (by omega) hlt c, fun hcov => ?_⟩
      have := (targetRow_inj hlt (by omega)).mp hcov.1
      omega
    · rw [rowsCover_cons, or_assoc]

theorem flips_drawSprite {rows : List Byte} (hlen : rows.length ≤ 32) :
    Flips old (RowsCover x0 y0 0 rows) (drawSprite old x0 y0 rows) :=
  ((flips_start old).drawRows (fun _ _ _ _ => id) ((Nat.zero_add _).trans_le hlen)).congr
    fun _ _ => (iff_of_eq (false_or _)).symm

end Drawing

/-! ### `Dxyn` (R172 to R175) -/

/-- The drawing that `Dxyn` makes when its `n` rows can be read. -/
def State.draw (s : State) (x y : Reg) (n : Rows) : Drawing :=
  drawSprite s.fb (s.reg x) (s.reg y) (Memory.readRange s.cfg.resetByte s.mem s.i.toNat n.val)

theorem rowsCover_readRange_iff {r : Fin 32} {c : Fin 64} :
    RowsCover (s.reg x) (s.reg y) 0 (Memory.readRange s.cfg.resetByte s.mem s.i.toNat n.val) r c ↔
      Covered s x y n r c := by
  simp only [RowsCover, RowCovers, Covered, Memory.getElem?_readRange, targetRow, targetCol, spriteBit,
    Fin.ext_iff, Nat.zero_add, Option.ite_none_right_eq_some, Option.some.injEq, State.readByte]
  constructor
  · rintro ⟨j, _, ⟨hj, rfl⟩, hr, i, hi, hc, hbit⟩
    exact ⟨j, i, hj, hi, hr, hc, hbit⟩
  · rintro ⟨j, i, hj, hi, hr, hc, hbit⟩
    exact ⟨j, _, ⟨hj, rfl⟩, hr, i, hi, hc, hbit⟩

theorem State.flips_draw (s : State) (x y : Reg) (n : Rows) :
    Flips s.fb (Covered s x y n) (s.draw x y n) :=
  (flips_drawSprite ((Memory.length_readRange ..).trans_le (by omega))).congr
    fun _ _ => rowsCover_readRange_iff.symm

/-- The rows are read when they lie inside the memory, and there is nothing to read when there are none
(the spec's D7). -/
theorem State.spriteRows_ok (hfit : n.val = 0 ∨ s.i.toNat + n.val ≤ 4096) :
    s.spriteRows n = .ok (Memory.readRange s.cfg.resetByte s.mem s.i.toNat n.val) := by
  unfold State.spriteRows
  split
  · next hn => rw [hn]; rfl
  · next hn => exact State.memRead_ok (hfit.resolve_left (mt Fin.val_eq_zero_iff.mp hn))

theorem exec_drw_of_fits (hfit : n.val = 0 ∨ s.i.toNat + n.val ≤ 4096) :
    exec (.drw x y n) s =
      .next ((s.setFb (s.draw x y n).fb).setFlag (s.draw x y n).collision).advance := by
  simp only [exec, execDrw, State.spriteRows_ok hfit, State.commit_ok, State.draw]

theorem exec_drw_of_not_fits (hn : n.val ≠ 0) (hout : 4096 < s.i.toNat + n.val) :
    exec (.drw x y n) s = .next (s.faulted .addressOutOfRange s.i) := by
  have hrows : s.spriteRows n = .error (outOfRange s.i) :=
    (if_neg (mt Fin.val_eq_zero_iff.mpr hn)).trans (State.memRead_error hout.not_ge)
  simp only [exec, execDrw, hrows, State.commit_error, State.takeFault_eq_faulted, outOfRange]

theorem State.unchanged_draw (s : State) (g : Framebuffer) (c : Bool) :
    Unchanged { regs := [15], screen := true } s ((s.setFb g).setFlag c).advance :=
  (((Unchanged.refl _ s).setFb rfl g).setReg (List.mem_singleton_self regVF) (flagByte c)).setPc _

/-- Everything a `Dxyn` that can read its rows does: the pixels, the flag, `PC` and the frame. -/
theorem exists_draw_of_exec (hfit : n.val = 0 ∨ s.i.toNat + n.val ≤ 4096) :
    ∃ t, exec (.drw x y n) s = .next t ∧
      (∀ r c, t.pixel r c ≠ s.pixel r c ↔ Covered s x y n r c) ∧
      ((∃ r c, Covered s x y n r c ∧ s.pixel r c = true) → t.reg 15 = 1) ∧
      (¬ (∃ r c, Covered s x y n r c ∧ s.pixel r c = true) → t.reg 15 = 0) ∧
      t.pc = s.pc + 2 ∧ Unchanged { regs := [15], screen := true } s t := by
  have hflips := s.flips_draw x y n
  have hflag := (s.setFb (s.draw x y n).fb).reg_setReg_same 15 (flagByte (s.draw x y n).collision)
  refine ⟨_, exec_drw_of_fits hfit, hflips.pixel, fun hon => ?_, fun hoff => ?_, rfl,
    s.unchanged_draw _ _⟩
  · exact hflag.trans (congrArg flagByte (hflips.collision.mpr hon))
  · exact hflag.trans (congrArg flagByte (Bool.eq_false_iff.mpr (mt hflips.collision.mp hoff)))

/-- Settles O49: the draw when its rows can be read, or its fault. -/
theorem drawFlipsTheCoveredPixels : Obligations.DrawFlipsTheCoveredPixels := fun x y n _ =>
  ⟨encodedAs_row (.drw x y n), exists_draw_of_exec, exec_drw_of_not_fits⟩

/-! ### Drawing twice (the document's property S5) -/

/-- A draw that does not move its own place covers the same pixels when it is repeated. -/
theorem covered_iff_of_unchanged (hx : x ≠ 15) (hy : y ≠ 15)
    (h : Unchanged { regs := [15], screen := true } s t) {r : Fin 32} {c : Fin 64} :
    Covered t x y n r c ↔ Covered s x y n r c := by
  have hregs : ∀ q : Reg, q ≠ 15 → t.reg q = s.reg q := fun q hq => h.regs q (by simpa using hq)
  have hmem : ∀ a, t.readByte a = s.readByte a := fun a => h.mem a (.inr (Nat.zero_le a))
  simp only [Covered, hregs x hx, hregs y hy, h.index rfl, hmem]

/-- Settles O50: both draws flip the same pixels, so the second finds on what the first turned on. -/
theorem drawingTwiceRestoresTheScreen : Obligations.DrawingTwiceRestoresTheScreen := by
  intro x y n s t u hx hy hfit hfirst hsecond
  obtain ⟨_, hexec, hst, -, -, -, hframe⟩ := exists_draw_of_exec (x := x) (y := y) hfit
  cases hexec.symm.trans hfirst
  obtain ⟨_, hexec', htu, hon, hoff, -⟩ :=
    exists_draw_of_exec (s := t) (x := x) (y := y) (n := n) (hframe.index rfl ▸ hfit)
  cases hexec'.symm.trans hsecond
  simp only [covered_iff_of_unchanged hx hy hframe] at htu hon hoff
  have hturned : (∃ r c, Covered s x y n r c ∧ t.pixel r c = true) ↔
      ∃ r c, Covered s x y n r c ∧ s.pixel r c = false :=
    exists_congr fun r => exists_congr fun c => and_congr_right fun hcov => by
      rw [Bool.eq_not.mpr ((hst r c).mpr hcov), Bool.not_eq_true']
  refine ⟨fun r c => eq_of_ne_iff_ne ((htu r c).trans (hst r c).symm), ?_⟩
  rw [← hturned]
  refine ⟨fun hflag => by_contra fun hno => ?_, hon⟩
  exact absurd (hflag.symm.trans (hoff hno)) (by decide)

/-! ### The number of pixels changed (R174) -/

/-- The pixel that bit `q.2`, counted from the right, of row `q.1` of a sprite lands on. -/
def landing (x0 y0 : Byte) {m : Nat} (q : Fin m × Fin 8) : Fin 32 × Fin 64 :=
  (targetRow y0 q.1.val, targetCol x0 (7 - q.2.val))

/-- No two bits of one sprite land on the same pixel. -/
theorem landing_injective (x0 y0 : Byte) {m : Nat} (hm : m ≤ 32) :
    Function.Injective (landing x0 y0 (m := m)) := by
  intro q q' h
  obtain ⟨hrow, hcol⟩ := Prod.mk.inj h
  rw [targetRow_inj (by omega) (by omega)] at hrow
  rw [targetCol_inj (by omega) (by omega)] at hcol
  exact Prod.ext (Fin.ext hrow) (Fin.ext (by omega))

theorem covered_iff_exists_landing {p : Fin 32 × Fin 64} : Covered s x y n p.1 p.2 ↔
    ∃ q : Fin n.val × Fin 8, (s.readByte (s.i.toNat + q.1.val)).getLsbD q.2.val = true ∧
      landing (s.reg x) (s.reg y) q = p := by
  constructor
  · rintro ⟨j, i, hj, hi, hrow, hcol, hbit⟩
    refine ⟨(⟨j, hj⟩, ⟨7 - i, by omega⟩), hbit, Prod.ext (Fin.ext hrow.symm) (Fin.ext ?_)⟩
    simp only [landing, targetCol, hcol, Nat.sub_sub_self (Nat.le_of_lt_succ hi)]
  · rintro ⟨q, hbit, rfl⟩
    refine ⟨q.1, 7 - q.2, q.1.isLt, by omega, rfl, rfl, ?_⟩
    rwa [Nat.sub_sub_self (by omega)]

/-- Settles O51: the pixels changed are the image of the 1 bits under `landing`. -/
theorem pixelsChangedAreTheSpriteBits : Obligations.PixelsChangedAreTheSpriteBits := by
  intro x y n s t hfit hdraw
  obtain ⟨_, hexec, hpixel, -⟩ := exists_draw_of_exec (x := x) (y := y) hfit
  cases hexec.symm.trans hdraw
  rw [← Finset.card_image_of_injective _ (landing_injective (s.reg x) (s.reg y) (by omega))]
  congr 1
  ext p
  simp only [Finset.mem_filter_univ, Finset.mem_image, hpixel, covered_iff_exists_landing]

end Sys2Proof.Machine
end

section
/-! The keypad (spec/46_keypad_timers.md R180 to R185): what a key event does to the set of pressed keys, the
two key skips, and the key wait that `Fx0A` begins and `KeyDown` ends. -/

namespace Sys2Proof.Machine

variable {s t : State} {i : Instr} {x : Reg} {w : Touched}

/-! ### The set of pressed keys (R38, R181, R182) -/

theorem getLsbD_one_shiftLeft_key (k q : Key) : (1#16 <<< k.val).getLsbD q.val = decide (q = k) := by
  rw [← BitVec.twoPow_eq, BitVec.getLsbD_twoPow]
  simp [Fin.ext_iff, eq_comm]

theorem State.keyIsDown_of_keys_eq_pressKey {k : Key} (h : t.keys = pressKey s.keys k) (q : Key) :
    t.keyIsDown q = (s.keyIsDown q || decide (q = k)) := by
  rw [State.keyIsDown, h, pressKey, BitVec.getLsbD_or, getLsbD_one_shiftLeft_key, State.keyIsDown]

theorem State.keyIsDown_of_keys_eq_releaseKey {k : Key} (h : t.keys = releaseKey s.keys k) (q : Key) :
    t.keyIsDown q = (s.keyIsDown q && !decide (q = k)) := by
  rw [State.keyIsDown, h, releaseKey, BitVec.getLsbD_and, BitVec.getLsbD_not, getLsbD_one_shiftLeft_key,
    decide_eq_true q.isLt, Bool.true_and, State.keyIsDown]

/-- Settles O19: the release is a write of `KEYS` alone, and clears one bit. -/
theorem keyUpClearsOneKey : Obligations.KeyUpClearsOneKey := by
  refine fun s k => ⟨s.keyUp k, rfl, rfl, rfl, fun q => ?_⟩
  simp [State.keyIsDown_of_keys_eq_releaseKey (s := s) (t := s.keyUp k) rfl]

/-! ### A key press, outside a key wait and in one (R181, R185) -/

theorem State.keyDown_of_not_waiting (h : s.runState ≠ .waitingForKey) (k : Key) :
    s.keyDown k = s.setKeys (pressKey s.keys k) := by
  unfold State.keyDown
  split
  · rfl
  · exact absurd ‹_› h
  · rfl

theorem State.keyDown_of_waiting (h : s.runState = .waitingForKey) (k : Key) :
    s.keyDown k = (s.setKeys (pressKey s.keys k)).completeWait k := by
  simp only [State.keyDown, h]

theorem State.keys_keyDown (s : State) (k : Key) : (s.keyDown k).keys = pressKey s.keys k := by
  by_cases h : s.runState = .waitingForKey
  · rw [State.keyDown_of_waiting h]; rfl
  · rw [State.keyDown_of_not_waiting h]; rfl

/-- Settles O20: the press sets one bit, and outside a key wait it is a write of `KEYS` alone. -/
theorem keyDownSetsOneKey : Obligations.KeyDownSetsOneKey := by
  refine fun s k => ⟨s.keyDown k, rfl, fun q => ?_, fun h => ?_⟩
  · simp [State.keyIsDown_of_keys_eq_pressKey (s.keys_keyDown k)]
  · rw [State.keyDown_of_not_waiting h]; rfl

/-! ### The key wait (R185) -/

@[simp] theorem exec_ldVxK : exec (.ldVxK x) s = .next (s.suspend x) := rfl

theorem Unchanged.suspend (h : Unchanged w s t) (hw : w.wait = true) (x : Reg) :
    Unchanged w s (t.suspend x) :=
  { h with wait := fun hf => nomatch hw.symm.trans hf }

/-- Settles O52: `exec_ldVxK`. -/
theorem waitKeySuspends : Obligations.WaitKeySuspends := fun x s =>
  ⟨encodedAs_row (.ldVxK x), _, exec_ldVxK, rfl, rfl, rfl, (Unchanged.refl _ s).suspend rfl x⟩

/-- The key code fits the register (R185). -/
theorem State.toNat_reg_completeWait (s : State) (k : Key) :
    ((s.completeWait k).reg s.waitX).toNat = k.val := by
  have hreg : (s.completeWait k).reg s.waitX = BitVec.ofNat 8 k.val := s.reg_setReg_same s.waitX _
  rw [hreg, BitVec.toNat_ofNat]
  omega

theorem State.reg_completeWait_of_ne {r : Reg} (k : Key) (h : r ≠ s.waitX) :
    (s.completeWait k).reg r = s.reg r :=
  s.reg_setReg_other _ h

/-- Settles O21: `Fx0A` leaves a waiting core, so the press is `State.completeWait` of it. -/
theorem keyDownCompletesTheWait : Obligations.KeyDownCompletesTheWait := by
  intro s x k
  have hdone := State.keyDown_of_waiting (s.suspend_runState x) k
  refine ⟨_, _, exec_ldVxK, congrArg _ hdone, State.toNat_reg_completeWait _ k, rfl, rfl, ?_,
    fun q hq => ?_, fun r hr => State.reg_completeWait_of_ne k hr, rfl⟩
  · exact (State.keyIsDown_of_keys_eq_pressKey (s := s) rfl k).trans (by simp)
  · exact (State.keyIsDown_of_keys_eq_pressKey (s := s) rfl q).trans (by simp [hq])

/-! ### The key skips (R183, R184) -/

@[simp] theorem exec_skp : exec (.skp x) s = .next (s.skipIf (s.keyPressed (s.reg x))) := rfl

@[simp] theorem exec_sknp : exec (.sknp x) s = .next (s.skipIf (!s.keyPressed (s.reg x))) := rfl

/-- A value is pressed when it is the code of a pressed key; no value above 15 is one (R180, the spec's
D14). -/
theorem State.keyPressed_iff {b : Byte} :
    s.keyPressed b = true ↔ ∃ k : Key, b.toNat = k.val ∧ s.keyIsDown k = true := by
  simp only [State.keyPressed, State.keyIsDown, Bool.and_eq_true, decide_eq_true_eq]
  constructor
  · rintro ⟨hle, hdown⟩
    exact ⟨⟨b.toNat, by omega⟩, rfl, hdown⟩
  · rintro ⟨k, hk, hdown⟩
    exact ⟨by omega, hk ▸ hdown⟩

theorem State.not_keyPressed_iff {b : Byte} :
    (!s.keyPressed b) = true ↔ ¬ ∃ k : Key, b.toNat = k.val ∧ s.keyIsDown k = true := by
  rw [Bool.not_eq_true', ← Bool.not_eq_true, State.keyPressed_iff]

/-- `exists_skip_of_exec`, with the two cases of the test apart. -/
theorem exists_skip_cases_of_exec {c : Bool} {p : Prop} (hexec : exec i s = .next (s.skipIf c))
    (hc : c = true ↔ p) :
    ∃ t, exec i s = .next t ∧ Unchanged {} s t ∧
      (p → t.pc = s.pc + 4) ∧ (¬ p → t.pc = s.pc + 2) := by
  classical
  obtain ⟨t, ht, hpc, hframe⟩ := exists_skip_of_exec hexec hc
  exact ⟨t, ht, hframe, fun hp => by rw [hpc, if_pos hp], fun hp => by rw [hpc, if_neg hp]⟩

/-- Settles O34: both instructions are skips, on a pressed key and on its negation. -/
theorem keySkipsTestOneKey : Obligations.KeySkipsTestOneKey := by
  refine ⟨fun x s => ⟨encodedAs_row (.skp x), exists_skip_cases_of_exec exec_skp State.keyPressed_iff⟩,
    fun x s => ⟨encodedAs_row (.sknp x), ?_⟩⟩
  obtain ⟨t, hexec, hframe, hreleased, hpressed⟩ :=
    exists_skip_cases_of_exec (exec_sknp (s := s) (x := x)) State.not_keyPressed_iff
  exact ⟨t, hexec, hframe, fun hp => hpressed (not_not.mpr hp), hreleased⟩

end Sys2Proof.Machine
end

section
/-! The timers (spec/46_keypad_timers.md R186 to R188): the three instructions that read or set one, and that
the sound timer is no input of any instruction (spec/10_state.md R35). -/

namespace Sys2Proof.Machine

variable {s t : State} {i : Instr} {x : Reg} {w : Touched}

/-! ### Reads and writes of a timer -/

@[simp] theorem exec_ldVxDT : exec (.ldVxDT x) s = .next (s.setReg x s.dt).advance := rfl

@[simp] theorem exec_ldDTVx : exec (.ldDTVx x) s = .next (s.setDt (s.reg x)).advance := rfl

@[simp] theorem exec_ldSTVx : exec (.ldSTVx x) s = .next (s.setSt (s.reg x)).advance := rfl

theorem Unchanged.setDt (h : Unchanged w s t) (hw : w.delayTimer = true) (b : Byte) :
    Unchanged w s (t.setDt b) :=
  { h with delayTimer := fun hf => nomatch hw.symm.trans hf }

theorem Unchanged.setSt (h : Unchanged w s t) (hw : w.soundTimer = true) (b : Byte) :
    Unchanged w s (t.setSt b) :=
  { h with soundTimer := fun hf => nomatch hw.symm.trans hf }

/-- Settles O53: the read is a result, the write `State.setDt`. -/
theorem delayTimerIsReadAndSet : Obligations.DelayTimerIsReadAndSet :=
  ⟨fun x _ => ⟨encodedAs_row (.ldVxDT x), exists_result_of_exec exec_ldVxDT⟩,
    fun x s => ⟨encodedAs_row (.ldDTVx x), _, exec_ldDTVx, rfl, rfl,
      ((Unchanged.refl _ s).setDt rfl _).setPc _⟩⟩

/-! ### The sound timer is read by no instruction (R35) -/

variable {b : Byte}

theorem State.storeAtI_of_fits {bytes : List Byte} (hfit : s.i.toNat + bytes.length ≤ 4096) :
    s.storeAtI bytes =
      .next (s.setMem (Memory.writeRange s.cfg.resetByte s.mem s.i.toNat bytes)).advance := by
  simp only [State.storeAtI, State.memWrite_ok hfit, State.commit_ok]

/-- A store at `I` carries the sound timer along, whether it fits or faults. -/
theorem State.storeAtI_setSt {bytes : List Byte} (h : s.storeAtI bytes = .next t) :
    (s.setSt b).storeAtI bytes = .next (t.setSt b) := by
  by_cases hfit : s.i.toNat + bytes.length ≤ 4096
  · cases (State.storeAtI_of_fits hfit).symm.trans h
    exact State.storeAtI_of_fits (s := s.setSt b) hfit
  · cases (State.storeAtI_error hfit).symm.trans h
    exact State.storeAtI_error (s := s.setSt b) hfit

/-- Every instruction but `Fx18` carries the sound timer along unread: the test of an access or of the call
stack comes out the same, and so does what follows it. -/
theorem exec_setSt (hi : ∀ x, i ≠ .ldSTVx x) (h : exec i s = .next t) :
    exec i (s.setSt b) = .next (t.setSt b) := by
  cases i with
  | ldSTVx x => exact absurd rfl (hi x)
  | ret =>
    by_cases hsp : s.sp = 0
    · cases (exec_ret_of_eq_zero hsp).symm.trans h
      exact exec_ret_of_eq_zero (s := s.setSt b) hsp
    · cases (exec_ret_of_ne_zero hsp).symm.trans h
      exact exec_ret_of_ne_zero (s := s.setSt b) hsp
  | call nnn =>
    obtain hroom | hfull := lt_or_ge s.sp.val s.cfg.stackDepth
    · cases (exec_call_of_lt hroom).symm.trans h
      exact exec_call_of_lt (s := s.setSt b) hroom
    · cases (exec_call_of_full hfull).symm.trans h
      exact exec_call_of_full (s := s.setSt b) hfull
  | drw x y n =>
    by_cases hfit : n.val = 0 ∨ s.i.toNat + n.val ≤ 4096
    · cases (exec_drw_of_fits hfit).symm.trans h
      exact exec_drw_of_fits (s := s.setSt b) hfit
    · obtain ⟨hn, hout⟩ := not_or.mp hfit
      cases (exec_drw_of_not_fits hn (not_le.mp hout)).symm.trans h
      exact exec_drw_of_not_fits (s := s.setSt b) hn (not_le.mp hout)
  | ldVxMem x =>
    obtain hfit | hout := le_or_gt (s.i.toNat + x.val + 1) 4096
    · cases (exec_ldVxMem_of_le hfit).symm.trans h
      exact exec_ldVxMem_of_le (s := s.setSt b) hfit
    · cases (exec_ldVxMem_of_lt hout).symm.trans h
      exact exec_ldVxMem_of_lt (s := s.setSt b) hout
  | ldBVx | ldMemVx => exact State.storeAtI_setSt h
  | _ => cases h; rfl

/-- `Fx18` overwrites the sound timer, so it does the same whatever was there. -/
theorem exec_ldSTVx_setSt : exec (.ldSTVx x) (s.setSt b) = exec (.ldSTVx x) s := rfl

/-- With another sound timer an instruction does the same to everything else. -/
theorem exists_exec_setSt (b : Byte) (h : exec i s = .next t) :
    ∃ t', exec i (s.setSt b) = .next t' ∧ t'.setSt t.st = t ∧
      ((∀ x, i ≠ .ldSTVx x) → t'.st = b) := by
  by_cases hi : ∃ x, i = .ldSTVx x
  · obtain ⟨x, rfl⟩ := hi
    exact ⟨t, exec_ldSTVx_setSt.trans h, rfl, fun hne => absurd rfl (hne x)⟩
  · exact ⟨t.setSt b, exec_setSt (not_exists.mp hi) h, rfl, fun _ => rfl⟩

/-- Settles O54: `exec_ldSTVx` and `State.soundActive_iff`; the rest is `exists_exec_setSt`. -/
theorem soundTimerIsSetByFx18AndReadByNone : Obligations.SoundTimerIsSetByFx18AndReadByNone :=
  ⟨fun x s => ⟨encodedAs_row (.ldSTVx x), _, exec_ldSTVx, rfl, rfl, State.soundActive_iff _,
    ((Unchanged.refl _ s).setSt rfl _).setPc _⟩, fun _ _ _ b => exists_exec_setSt b⟩

end Sys2Proof.Machine
end

section
/-! The host events case by case, by the run state (spec/40_cycle.md R90, spec/46_keypad_timers.md R220,
spec/60_exceptions.md R212, R213, spec/70_reset_and_hazards.md R240, R246), and their order when several are
presented at once (R214). -/

namespace Sys2Proof.Machine

variable {s : State} {e : HostEvent} {bytes : List Byte}

/-! ### `Quit` (R212) -/

theorem State.quit_of_not_halted (h : s.runState ≠ .halted) : s.quit = s.faulted .none 0 := by
  unfold State.quit
  split
  · rfl
  · rfl
  · exact absurd ‹_› h

theorem State.quit_of_halted (h : s.runState = .halted) : s.quit = s := by
  simp only [State.quit, h]

/-- Settles O16: `State.quit_of_not_halted` and `State.quit_of_halted`. -/
theorem quitHaltsWithoutAFault : Obligations.QuitHaltsWithoutAFault := fun _ =>
  ⟨fun h => congrArg _ (State.quit_of_not_halted h), fun h => congrArg _ (State.quit_of_halted h)⟩

/-! ### `Tick` (R220) -/

theorem State.tick_of_running (h : s.runState = .running) :
    s.tick = (s.setDt (countDown s.dt)).setSt (countDown s.st) := by
  simp only [State.tick, h]

theorem State.tick_of_not_running (h : s.runState ≠ .running) : s.tick = s := by
  unfold State.tick
  split
  · exact absurd ‹_› h
  · rfl
  · rfl

/-- Truncated subtraction says that a zero timer stays zero. -/
theorem toNat_countDown (b : Byte) : (countDown b).toNat = b.toNat - 1 := by
  unfold countDown
  split
  · next h => simp [h]
  · next h => bv_omega

/-- Settles O18: a running core counts both timers by `countDown`, any other does nothing. -/
theorem tickCountsBothTimersDown : Obligations.TickCountsBothTimersDown := fun s =>
  ⟨fun h => ⟨_, congrArg _ (State.tick_of_running h), toNat_countDown s.dt, toNat_countDown s.st, rfl⟩,
    fun h => congrArg _ (State.tick_of_not_running h)⟩

/-! ### `LoadProgram` (R246) -/

/-- A program that fits is written at 0x200; the empty one needs no case of its own. -/
theorem State.loadProgram_of_fits (hrun : s.runState = .running) (hfit : 0x200 + bytes.length ≤ 4096) :
    s.loadProgram bytes = s.setMem (Memory.writeRange s.cfg.resetByte s.mem 0x200 bytes) := by
  have hwrite : s.memWrite Config.progBase bytes = _ := State.memWrite_ok hfit
  simp only [State.loadProgram, hrun, hwrite]
  split
  · next h => rw [h]; rfl
  · rfl

/-- Settles O22: what memory holds after the load is `Memory.read_writeRange`. -/
theorem loadProgramWritesFrom0x200 : Obligations.LoadProgramWritesFrom0x200 := by
  refine fun s bytes hwf => ⟨fun hrun hfit => ?fits, fun hrun hout => ?tooLong, fun hrun => ?idle⟩
  case fits =>
    have hread := Memory.read_writeRange hwf 0x200 bytes hfit
    refine ⟨_, congrArg _ (State.loadProgram_of_fits hrun hfit), rfl, fun k hk => ?_, fun a ha => ?_⟩
    · simp [hread, hk]
    · rw [State.readByte_setMem, hread]
      split
      · rw [List.getElem?_eq_none (by omega)]; rfl
      · rfl
  case tooLong => exact congrArg _ (State.loadProgram_of_not_fits hrun hout.not_ge)
  case idle => exact congrArg _ (State.loadProgram_of_not_running hrun bytes)

/-! ### `Reset` (R240) -/

/-- Settles O23: the reset memory lists no cell, so it reads as `Config.resetByte`, and the grid is the
cleared one. -/
theorem resetEventRestoresEverything : Obligations.ResetEventRestoresEverything := by
  refine fun s => ⟨s.restart, rfl, fun a _ => s.cfg.resetByte_eq a, Framebuffer.pixel_clear, fun r => ?_,
    rfl, rfl, rfl, rfl, rfl, rfl, rfl, rfl, rfl, rfl, rfl⟩
  exact Vector.getElem_replicate r.isLt

/-! ### A halted core (R213) -/

/-- The events that do nothing at all to a halted core. -/
theorem State.deliver_of_halted (h : s.runState = .halted) (hreset : e ≠ .reset)
    (hdown : ∀ k, e ≠ .keyDown k) (hup : ∀ k, e ≠ .keyUp k) : s.deliver e = .next s := by
  have hrun : s.runState ≠ .running := by simp [h]
  cases e with
  | reset => exact absurd rfl hreset
  | keyDown k => exact absurd rfl (hdown k)
  | keyUp k => exact absurd rfl (hup k)
  | loadProgram bytes => exact congrArg _ (State.loadProgram_of_not_running hrun bytes)
  | cycle => exact State.cycle_of_not_running hrun
  | tick => exact congrArg _ (State.tick_of_not_running hrun)
  | quit => exact congrArg _ (State.quit_of_halted h)

/-- Settles O14: a key event is a write of `KEYS` alone, and any other does nothing. -/
theorem haltedIsLeftOnlyByReset : Obligations.HaltedIsLeftOnlyByReset := by
  intro s e h hreset
  cases e with
  | reset => exact absurd rfl hreset
  | keyDown k =>
    refine ⟨_, congrArg _ (State.keyDown_of_not_waiting (by simp [h]) k), rfl, fun q => ?_⟩
    rw [State.keyIsDown_of_keys_eq_pressKey (s := s) rfl]
    simp [or_comm, eq_comm (a := k)]
  | keyUp k =>
    refine ⟨_, rfl, rfl, fun q => ?_⟩
    rw [State.keyIsDown_of_keys_eq_releaseKey (s := s) rfl]
    simp [eq_comm (a := k)]
  | loadProgram | cycle | tick | quit =>
    exact ⟨s, State.deliver_of_halted h nofun nofun nofun, rfl, fun q => by simp⟩

/-! ### Events presented at once (R214) -/

theorem mem_keysOf {ks : BitVec 16} {k : Key} : k ∈ keysOf ks ↔ ks.getLsbD k.val = true := by
  simp [keysOf]

theorem pairwise_lt_keysOf (ks : BitVec 16) : (keysOf ks).Pairwise (· < ·) :=
  (List.pairwise_lt_finRange 16).filter _

/-- Settles O25: the keys of a port word are its set bits in ascending order. -/
theorem simultaneousEventsAreSerialised : Obligations.SimultaneousEventsAreSerialised := fun p =>
  ⟨keysOf p.keyUps, keysOf p.keyDowns, rfl, pairwise_lt_keysOf _, pairwise_lt_keysOf _,
    fun _ => ⟨mem_keysOf, mem_keysOf⟩⟩

end Sys2Proof.Machine
end

section
/-! Fault entry (spec/60_exceptions.md R202, R204, R208): a fault is a next state, an unimplemented word is
one, and which codes are recorded. -/

namespace Sys2Proof.Machine

variable {s t : State} {i : Instr} {op : Word} {e : HostEvent}

/-! ### The unimplemented word (R75, R208) -/

theorem State.cycle_of_decodeWord_error {r : Reject} (hrun : s.runState = .running)
    (hfetch : s.fetch = .ok op) (hdec : decodeWord op = .error r) :
    s.cycle = .next (s.faulted .unimplementedOpcode op) := by
  simp only [State.cycle, hrun, hfetch, hdec]
  rfl

/-- Settles O8: the decoder rejects a word that selects no row, and taking the event does not touch the
fetch. -/
theorem unimplementedWordHalts : Obligations.UnimplementedWordHalts := by
  intro s op hnext hrun hfetch hnone
  obtain ⟨-, hrows⟩ := decodeReturnsTheMatchingRow
  obtain ⟨-, hreject⟩ := hrows op
  rw [step_of_nextEvent_cycle hnext]
  exact State.cycle_of_decodeWord_error (s := s.dropEvent) hrun hfetch (hreject hnone)

/-! ### Every step answers a next state (R204) -/

theorem State.exists_commit (s : State) (r : Except Raise State) : ∃ t, s.commit r = .next t := by
  cases r with
  | ok u => exact ⟨u, rfl⟩
  | error e => exact ⟨s.takeFault e, rfl⟩

/-- The instructions that can fail end in `State.commit`; each of the others has one next state. -/
theorem exists_exec (i : Instr) (s : State) : ∃ t, exec i s = .next t := by
  cases i with
  | ret | call | drw | ldBVx | ldMemVx | ldVxMem => exact s.exists_commit _
  | _ => exact ⟨_, rfl⟩

theorem State.exists_cycle (s : State) : ∃ t, s.cycle = .next t := by
  obtain ⟨-, h⟩ | ⟨-, e, -, h⟩ | ⟨-, op, r, -, -, h⟩ | ⟨-, op, i, -, -, h⟩ := s.cycle_cases
  · exact ⟨_, h⟩
  · exact ⟨_, h⟩
  · exact ⟨_, h⟩
  · rw [h]; exact exists_exec i s

theorem State.exists_deliver (s : State) (e : HostEvent) : ∃ t, s.deliver e = .next t := by
  cases e with
  | cycle => exact s.exists_cycle
  | _ => exact ⟨_, rfl⟩

/-- Settles O12: only a `Cycle` runs a handler, and each handler ends in a next state. -/
theorem everyStepAnswersANextState : Obligations.EveryStepAnswersANextState :=
  ⟨fun s => s.dropEvent.exists_deliver _, exists_exec⟩

/-! ### `InvalidRegisterIndex` is never recorded (R202) -/

theorem registerIndex_eq_ok {n : Nat} {r : Reg} (h : r.val = n) : registerIndex n = .ok r := by
  subst h
  simp [registerIndex]

theorem val_xField (w : Word) : (xField w).val = w.toNat / 256 % 16 := by
  simp [xField, Nat.shiftRight_eq_div_pow]

theorem val_yField (w : Word) : (yField w).val = w.toNat / 16 % 16 := by
  simp [yField, Nat.shiftRight_eq_div_pow]

/-- What an instruction records is a failure of `Raise.FromInstr`, and this is none of them. -/
theorem Effect.faultCode_ne_invalidRegisterIndex (h : Effect s i t)
    (hs : s.faultCode ≠ .invalidRegisterIndex) : t.faultCode ≠ .invalidRegisterIndex := by
  cases h with
  | fault he => obtain he | he | he := he <;> simp [he]
  | _ => exact hs

theorem State.faultCode_ne_invalidRegisterIndex_of_cycle (h : s.cycle = .next t)
    (hs : s.faultCode ≠ .invalidRegisterIndex) : t.faultCode ≠ .invalidRegisterIndex := by
  obtain ⟨-, heq⟩ | ⟨-, e, hfetch, heq⟩ | ⟨-, op, r, -, -, heq⟩ | ⟨-, op, i, -, -, heq⟩ :=
    s.cycle_cases
  · cases heq.symm.trans h
    exact hs
  · cases heq.symm.trans h
    simp [State.raise_of_fetch hfetch, outOfRange]
  · cases heq.symm.trans h
    simp
  · exact (exec_effect (heq.symm.trans h)).faultCode_ne_invalidRegisterIndex hs

theorem State.faultCode_tick (s : State) : s.tick.faultCode = s.faultCode := by
  unfold State.tick
  split <;> rfl

theorem State.faultCode_keyDown (s : State) (k : Key) : (s.keyDown k).faultCode = s.faultCode := by
  unfold State.keyDown
  split <;> rfl

theorem State.faultCode_quit (s : State) :
    s.quit.faultCode = if s.runState = .halted then s.faultCode else .none := by
  split
  · next h => rw [State.quit_of_halted h]
  · next h => rw [State.quit_of_not_halted h]; rfl

theorem State.faultCode_loadProgram (s : State) (bytes : List Byte) :
    (s.loadProgram bytes).faultCode =
      if s.runState = .running ∧ 0x200 + bytes.length > 4096 then .addressOutOfRange
      else s.faultCode := by
  split
  · next h => rw [State.loadProgram_of_not_fits h.1 h.2.not_ge]; rfl
  · next h =>
    by_cases hrun : s.runState = .running
    · rw [State.loadProgram_of_fits hrun (not_lt.mp fun hlt => h ⟨hrun, hlt⟩)]; rfl
    · rw [State.loadProgram_of_not_running hrun]

theorem State.faultCode_ne_invalidRegisterIndex_of_deliver (h : s.deliver e = .next t)
    (hs : s.faultCode ≠ .invalidRegisterIndex) : t.faultCode ≠ .invalidRegisterIndex := by
  cases e with
  | cycle => exact State.faultCode_ne_invalidRegisterIndex_of_cycle h hs
  | reset => cases h; nofun
  | keyUp k => cases h; exact hs
  | tick => cases h; rwa [s.faultCode_tick]
  | keyDown k => cases h; rwa [s.faultCode_keyDown k]
  | quit => cases h; rw [State.faultCode_quit]; split <;> simp [hs]
  | loadProgram bytes => cases h; rw [State.faultCode_loadProgram]; split <;> simp [hs]

/-- Settles O11: a register field has four bits, and no event records the code. -/
theorem invalidRegisterIndexIsNeverRecorded : Obligations.InvalidRegisterIndexIsNeverRecorded :=
  ⟨fun op => ⟨registerIndex_eq_ok (val_xField op), registerIndex_eq_ok (val_yField op)⟩,
    fun s _ hs hstep => State.faultCode_ne_invalidRegisterIndex_of_deliver (s := s.dropEvent) hstep hs⟩

end Sys2Proof.Machine
end
